-- ==== Sys2Proof/Config.lean ====
section
/-!
DEFINITION. The open parameters of 00_scope.md rule R6: what the spec fixes for one block and one run
but gives no value for. Each is an opaque constant without a body, so a proof about the model holds for every value of it.
-/
namespace Sys2Proof

/-- One less than `CW`; the detour makes `CW ≥ 1` (92_eei_decisions.md D3) true of every value. (log 1) -/
opaque Config.cwLessOne : Nat

/-- `CW`, the width in bits of one colour, a positive number (00_scope.md R6). (log 1) -/
def Config.cw : Nat := Config.cwLessOne + 1

/-- `DEFAULT_PALETTE[i]`, the colour the block holds in `PAL[i]` after reset (00_scope.md R6, 70_reset R201). (log 2) -/
opaque Config.defaultColour : Fin 4 → BitVec Config.cw

/-- `SRC` at the start of a run: the environment's byte stream, of any length (00_scope.md R6). (log 3) -/
opaque Config.source : List (BitVec 8)

/-- A number from which the cursor at the start of a run is taken. (log 3) -/
opaque Config.rawCursor : Nat

/-- `SCUR` at the start of a run: any number with `0 ≤ SCUR ≤ SRC_LEN` (92_eei_decisions.md, open parameters). (log 3) -/
def Config.startCursor : Nat := min Config.rawCursor Config.source.length

end Sys2Proof
end

