-- ==== Sys2Proof/Word.lean ====
section
/-!
DEFINITION. The units the spec computes with: a byte, a colour, a plane of a tile, a palette, a decoded tile.
-/
namespace Sys2Proof

/-- An unsigned 8-bit value, bit 7 the most significant (00_scope.md R7). -/
abbrev Byte := BitVec 8

/-- A colour: an opaque `CW`-bit value, only copied and compared (00_scope.md R6). -/
abbrev Color := BitVec Config.cw

/-- One bit plane of a tile: one byte per tile row, row 0 first (30_encoding.md R71). -/
abbrev Plane := Vector Byte 8

/-- The palette: an ordered sequence of exactly 4 colours (00_scope.md R8); no other length can be expressed (60 R189). -/
abbrev Palette := Vector Color 4

/-- An 8x8 grid of 2-bit colour indices: row, then column (30_encoding.md R82). -/
abbrev Grid := Vector (Vector (BitVec 2) 8) 8

/-- A decoded tile: 8 rows of 8 colours, `tile[r][c]` (40_tile_decode.md R105). -/
abbrev Tile := Vector (Vector Color 8) 8

end Sys2Proof
end

