-- ==== Sys2Proof/Syntax.lean ====
section
/-!
DEFINITION. The operations of the block: one constructor per row of spec/opcode_table.json.
-/
namespace Sys2Proof

/-- Every operation the opcode table names. Operands are those of the row's `source_fields`. -/
inductive Instr where
  /-- `NOP`, command 0x00 (43 R156). -/
  | nop
  /-- `READ_HEADER`, command 0x01: starts a header read (43 R157). -/
  | readHeader
  /-- `DECODE_BANK`, command 0x02: starts a bank decode (43 R158). -/
  | decodeBank
  /-- Reserved command 0x03 (43 R159). -/
  | reserved03
  /-- Reserved commands 0x04 to 0x07; `x` is the free bits `w[1:0]` (43 R159). -/
  | reserved04to07 (x : BitVec 2)
  /-- Reserved commands 0x08 to 0x0F; `x` is `w[2:0]` (43 R159). -/
  | reserved08to0F (x : BitVec 3)
  /-- Reserved commands 0x10 to 0x1F; `x` is `w[3:0]` (43 R159). -/
  | reserved10to1F (x : BitVec 4)
  /-- Reserved commands 0x20 to 0x3F; `x` is `w[4:0]` (43 R159). -/
  | reserved20to3F (x : BitVec 5)
  /-- Reserved commands 0x40 to 0x7F; `x` is `w[5:0]` (43 R159). -/
  | reserved40to7F (x : BitVec 6)
  /-- Reserved commands 0x80 to 0xFF; `x` is `w[6:0]` (43 R159). -/
  | reserved80toFF (x : BitVec 7)
  /-- `LDPAL i, v`: write of colour `v` to register 4 + i (43 R161). -/
  | ldpal (i : BitVec 2) (v : Color)
  /-- `RD STATUS`, register 1 (43 R162). -/
  | rdStatus
  /-- `RD TN`, register 2 (43 R162). -/
  | rdTn
  /-- `RD BC`, register 3 (43 R162). -/
  | rdBc
  /-- `RD PALi`, register 4 + i (43 R162). -/
  | rdPal (i : BitVec 2)
  /-- `RD SIGi`, register 8 + i (43 R162, R165). -/
  | rdSig (i : BitVec 2)
  /-- `RD PRG`, register 12 (43 R162, R165). -/
  | rdPrg
  /-- `RD CHR`, register 13 (43 R162, R165). -/
  | rdChr
  /-- `RD SIGOK`, register 14 (43 R162, R165). -/
  | rdSigok
  /-- `RDPIX`, a read of canvas address `a`, `a[6:0]` the column and `a[14:7]` the row (43 R164). -/
  | rdpix (a : BitVec 15)
  /-- `TILE`: one tile record, channel A then channel B (30 R71). -/
  | tile (A B : Plane)
  /-- `HDR`: one header record, signature then the two counts (30 R74). -/
  | hdr (signature : Vector Byte 4) (prgCount chrCount : Byte)
  /-- `IS_VALID_SIGNATURE` of an operand, held as a list so that "inputs of any other length" can be asked about (42 R142). -/
  | isValidSignature (signature : List Byte)
  /-- `TFETCH`: fetch one tile record into the plane buffers (40 R101). -/
  | tfetch
  /-- `PIXIDX(a, b, c)`: the 2-bit index of column `c` (40 R102). -/
  | pixidx (a b : Byte) (c : Fin 8)
  /-- `LUT(idx)`: the colour of an index (40 R104). -/
  | lut (idx : BitVec 2)
  /-- `TDECODE` of the plane buffers with the palette (40 R105). -/
  | tdecode
  /-- `TPLACE(n, tile)`: write a decoded tile at the place of tile index `n`, a value of `TN` from 0 to 511 (41 R120). -/
  | tplace (n : BitVec 10) (t : Tile)
  /-- The FETCH step of the sequencer (41 R124). -/
  | fetchStep
  /-- The EMIT step of the sequencer (41 R125). -/
  | emitStep
  /-- The HDR step of the sequencer (42 R141). -/
  | hdrStep
  /-- `RESET`, the reset event (70 R200). -/
  | reset
  deriving DecidableEq, Repr

end Sys2Proof
end

