-- ==== Sys2Proof/WellFormed.lean ====
section
/-!
DEFINITION. The operand checks that the types of Syntax.lean leave open.
-/
namespace Sys2Proof

/-- An operation as the spec writes it. `TPLACE` takes a tile index 0 to 511, one less than what the 10 bits of `TN` can
hold (41 R120), and the operand of `IS_VALID_SIGNATURE` is 4 bytes (42 R142). Every other operand is in range by its type. -/
def Instr.wellFormed : Instr → Bool
  | .tplace n _ => decide (n.toNat < 512)
  | .isValidSignature bytes => decide (bytes.length = 4)
  | .nop | .readHeader | .decodeBank | .reserved03 | .reserved04to07 _ | .reserved08to0F _ | .reserved10to1F _ => true
  | .reserved20to3F _ | .reserved40to7F _ | .reserved80toFF _ | .ldpal _ _ | .rdStatus | .rdTn | .rdBc | .rdPal _ => true
  | .rdSig _ | .rdPrg | .rdChr | .rdSigok | .rdpix _ | .tile _ _ | .hdr _ _ _ | .tfetch | .pixidx _ _ _ | .lut _ => true
  | .tdecode | .fetchStep | .emitStep | .hdrStep | .reset => true

end Sys2Proof
end

