-- ==== Sys2Proof/Decode.lean ====
section
/-!
DEFINITION. From what is carried on `REG`, `CANVAS`, `SRC` and `SIG` to the operation it stands for (30_encoding.md
R70 to R78, R86; opcode_table.json), rejecting by name; then the encoder, and the host's table words.
-/
namespace Sys2Proof

/-- A host access to the register space or the canvas. The width of the path that carries a register is not specified
(10_state.md R27): a write carries the 8-bit value an 8-bit register takes and the `CW`-bit value a palette register
takes, and each register uses the one of its width. (log 7) -/
inductive Access where
  /-- Write to register `number`. -/
  | write (number : Byte) (byte : Byte) (colour : Color)
  /-- Read of register `number`. -/
  | read (number : Byte)
  /-- Read of the canvas pixel at `address`. -/
  | readPixel (address : Nat)
  deriving DecidableEq, Repr

/-- What the block decodes, by the formats of 30_encoding.md R70: host accesses and the three records. -/
inductive Encoded where
  /-- Formats `CMD`, `PALW`, `REGRD`, `CANVRD`. -/
  | access (a : Access)
  /-- Format `TILE`, the record's bytes in stream order. -/
  | tile (bytes : List Byte)
  /-- Format `HDR`, the record's bytes in stream order. -/
  | hdr (bytes : List Byte)
  /-- Format `SIG4`, the bytes of `SIG[0..3]`. -/
  | sig4 (bytes : List Byte)
  deriving DecidableEq, Repr

/-- Why something carried to the block is no operation of the table. -/
inductive Reject where
  /-- A write to a read-only or reserved register number (43 R166). -/
  | noRegisterWrite (number : Byte)
  /-- A read of a reserved register number (43 R165) or of `CMD`, which is write only (10 R27). (log 6) -/
  | noRegisterRead (number : Byte)
  /-- A canvas address above 32767 "does not exist" (43 R164). -/
  | noPixel (address : Nat)
  /-- A record with another number of bytes than its format has (30 R70). -/
  | recordLength (length : Nat)
  deriving DecidableEq, Repr

/-- `n` bytes of a list as a vector, reading a missing byte as zero; used only where the length was checked. -/
def bytesVector (n : Nat) (bytes : List Byte) : Vector Byte n :=
  Vector.ofFn fun i => bytes.getD i.val 0

/-- The command word (30 R76): the whole byte is the opcode; the reserved rows are told apart by mask and match (R86). -/
def decodeCmd (w : Byte) : Instr :=
  if w = 0x00 then .nop
  else if w = 0x01 then .readHeader
  else if w = 0x02 then .decodeBank
  else if w = 0x03 then .reserved03
  else if w &&& 0xFC = 0x04 then .reserved04to07 (w.extractLsb' 0 2)
  else if w &&& 0xF8 = 0x08 then .reserved08to0F (w.extractLsb' 0 3)
  else if w &&& 0xF0 = 0x10 then .reserved10to1F (w.extractLsb' 0 4)
  else if w &&& 0xE0 = 0x20 then .reserved20to3F (w.extractLsb' 0 5)
  else if w &&& 0xC0 = 0x40 then .reserved40to7F (w.extractLsb' 0 6)
  else .reserved80toFF (w.extractLsb' 0 7)

/-- A host access by register number (10 R27) or canvas address (20 R47). -/
def decodeAccess : Access → Except Reject Instr
  | .write number byte colour =>
    if number = 0x00 then .ok (decodeCmd byte)
    else if number &&& 0xFC = 0x04 then .ok (.ldpal (number.extractLsb' 0 2) colour)
    else .error (.noRegisterWrite number)
  | .read number =>
    if number = 0x01 then .ok .rdStatus
    else if number = 0x02 then .ok .rdTn
    else if number = 0x03 then .ok .rdBc
    else if number &&& 0xFC = 0x04 then .ok (.rdPal (number.extractLsb' 0 2))
    else if number &&& 0xFC = 0x08 then .ok (.rdSig (number.extractLsb' 0 2))
    else if number = 0x0C then .ok .rdPrg
    else if number = 0x0D then .ok .rdChr
    else if number = 0x0E then .ok .rdSigok
    else .error (.noRegisterRead number)
  | .readPixel address =>
    if address < 32768 then .ok (.rdpix (BitVec.ofNat 15 address)) else .error (.noPixel address)

/-- The decoder: every format, and any bytes (30 R71, R74, R83: every pattern of the right length is legal). -/
def decode : Encoded → Except Reject Instr
  | .access a => decodeAccess a
  | .tile bytes =>
    if bytes.length = 16 then .ok (.tile (bytesVector 8 bytes) (bytesVector 8 (bytes.drop 8)))
    else .error (.recordLength bytes.length)
  | .hdr bytes =>
    if bytes.length = 6 then .ok (.hdr (bytesVector 4 bytes) (bytes.getD 4 0) (bytes.getD 5 0))
    else .error (.recordLength bytes.length)
  | .sig4 bytes =>
    if bytes.length = 4 then .ok (.isValidSignature bytes) else .error (.recordLength bytes.length)

/-- The write of command word `w` to register 0; the colour half of the path is not used. -/
def cmdWrite (w : Byte) : Encoded := .access (.write 0x00 w 0)

/-- The encoder, from the same tables. Micro-operations, sequencer steps and reset have no encoding (30 R86). -/
def encode : Instr → Option Encoded
  | .nop => some (cmdWrite 0x00)
  | .readHeader => some (cmdWrite 0x01)
  | .decodeBank => some (cmdWrite 0x02)
  | .reserved03 => some (cmdWrite 0x03)
  | .reserved04to07 x => some (cmdWrite (1#6 ++ x))
  | .reserved08to0F x => some (cmdWrite (1#5 ++ x))
  | .reserved10to1F x => some (cmdWrite (1#4 ++ x))
  | .reserved20to3F x => some (cmdWrite (1#3 ++ x))
  | .reserved40to7F x => some (cmdWrite (1#2 ++ x))
  | .reserved80toFF x => some (cmdWrite (1#1 ++ x))
  | .ldpal i v => some (.access (.write (1#6 ++ i) 0 v))
  | .rdStatus => some (.access (.read 0x01))
  | .rdTn => some (.access (.read 0x02))
  | .rdBc => some (.access (.read 0x03))
  | .rdPal i => some (.access (.read (1#6 ++ i)))
  | .rdSig i => some (.access (.read (2#6 ++ i)))
  | .rdPrg => some (.access (.read 0x0C))
  | .rdChr => some (.access (.read 0x0D))
  | .rdSigok => some (.access (.read 0x0E))
  | .rdpix a => some (.access (.readPixel a.toNat))
  | .tile A B => some (.tile (A.toList ++ B.toList))
  | .hdr signature prgCount chrCount => some (.hdr (signature.toList ++ [prgCount, chrCount]))
  | .isValidSignature signature => some (.sig4 signature)
  | .tfetch | .pixidx _ _ _ | .lut _ | .tdecode | .tplace _ _ | .fetchStep | .emitStep | .hdrStep | .reset => none

/-- The `n` bytes of a record given as one number, the first stream byte the most significant (30 R86). -/
def bytesOfNumber (n w : Nat) : List Byte :=
  (List.range n).map fun k => BitVec.ofNat 8 (w >>> (8 * (n - 1 - k)))

/-- What a word of opcode_table.json stands for, by its width: 8 bits a command word, 16 a canvas address, 32 a `SIG4`,
48 an `HDR`, 128 a `TILE`. The rows of `PALW` and `REGRD` have their register number as word and share its 8-bit values
with the command words; the table's number alone does not tell them apart, and 8 bits read as the command. (log 18) -/
def encodedOfTableWord (nbits w : Nat) : Option Encoded :=
  match nbits with
  | 8 => some (cmdWrite (BitVec.ofNat 8 w))
  | 16 => some (.access (.readPixel w))
  | 32 => some (.sig4 (bytesOfNumber 4 w))
  | 48 => some (.hdr (bytesOfNumber 6 w))
  | 128 => some (.tile (bytesOfNumber 16 w))
  | _ => none

/-- The operation the decoder reads from a word of the opcode table. -/
def decodeTableWord (nbits w : Nat) : Option Instr :=
  match encodedOfTableWord nbits w with
  | some e =>
    match decode e with
    | .ok i => some i
    | .error _ => none
  | none => none

end Sys2Proof
end

