-- ==== Sys2Proof/Machine/State.lean ====
section
/-!
DEFINITION. The state of the block, its environment and its host (10_state.md), the reasons a step can stop, and the
state after reset. Names are the spec's, in lower case.
-/
namespace Sys2Proof.Machine

open Sys2Proof

/-- `ST`, the sequencer state: five values and no sixth (10_state.md R12). -/
inductive Seq where
  /-- No operation in progress. -/
  | idle
  /-- READ_HEADER in progress. -/
  | hdr
  /-- DECODE_BANK in progress, reading the bytes of tile `TN`. -/
  | fetch
  /-- DECODE_BANK in progress, all 16 bytes of tile `TN` read. -/
  | emit
  /-- A fault was raised; left only by reset. -/
  | fault
  deriving DecidableEq, Repr

/-- `CAUSE`: why `ST` = FAULT (10_state.md R25). -/
inductive Cause where
  /-- No fault since reset. -/
  | none
  /-- The stream ended inside READ_HEADER. -/
  | hdrUnderrun
  /-- The stream ended inside DECODE_BANK. -/
  | bankUnderrun
  deriving DecidableEq, Repr

/-- A value given back by a host read or produced by a micro-operation. -/
inductive Datum where
  /-- An 8-bit register: STATUS, SIGi, PRG, CHR. -/
  | bits8 (v : BitVec 8)
  /-- TN. -/
  | bits10 (v : BitVec 10)
  /-- BC. -/
  | bits5 (v : BitVec 5)
  /-- SIGOK. -/
  | bits1 (v : BitVec 1)
  /-- PALi or a canvas pixel, or the result of LUT. -/
  | colour (v : Color)
  /-- The result of PIXIDX. -/
  | index (v : BitVec 2)
  /-- The result of TDECODE. -/
  | tile (v : Tile)
  deriving DecidableEq, Repr

/-- What happens next: a host action (43 R170, 30 R85) or a move of the block. The list of turns in `State.agenda` makes
the interleaving of host and block plain data (43 R155, 60 R187). (log 4) -/
inductive Turn where
  /-- The host accesses a register or a pixel. -/
  | access (a : Access)
  /-- The reset event. -/
  | reset
  /-- The host positions the stream: `SCUR <- offset` (10 R30). -/
  | seek (offset : Nat)
  /-- The host lets the block step until ST is IDLE or FAULT (30 R85). -/
  | wait
  /-- One small step of the block. -/
  | block
  /-- The block takes a whole record at once where one starts (the big-step grain of 41 R132), else one small step. (log 15) -/
  | record
  /-- The comparison of `SIG` with the signature is looked at (42 R142). (log 23) -/
  | compare
  deriving DecidableEq, Repr

/-- The canvas: the pixels that hold a value, by address; an address that is not listed holds `no value` (10 R18, R10). -/
abbrev Memory := List (Nat × Color)

/-- The one form of a canvas: addresses strictly rising and inside the 32768 pixels. `no value` is never listed. -/
abbrev Memory.wf (m : Memory) : Prop :=
  m.Pairwise (fun p q => p.1 < q.1) ∧ ∀ p ∈ m, p.1 < 32768

/-- All the state there is: the block's (10_state.md R11), the environment's (R30), and the model's own last four fields.
An option is the spec's own `no value` (R10). -/
structure State where
  /-- `ST` (R12). -/
  st : Seq
  /-- `TN`, tile index 0 to 512 (R14). -/
  tn : BitVec 10
  /-- `BC`, bytes of the current record already read, 0 to 16 (R15). -/
  bc : BitVec 5
  /-- `CHA[0..7]` (R16). -/
  cha : Vector (Option Byte) 8
  /-- `CHB[0..7]` (R16). -/
  chb : Vector (Option Byte) 8
  /-- `PAL[0..3]` (R17). -/
  pal : Palette
  /-- `CANVAS[0..32767]` (R18). -/
  canvas : Memory
  /-- `CVV`, canvas valid (R19). -/
  cvv : Bool
  /-- `SIG[0..3]` (R20). -/
  sig : Vector (Option Byte) 4
  /-- `PRG` (R20). -/
  prg : Option Byte
  /-- `CHR` (R20). -/
  chr : Option Byte
  /-- `HDRV`, header valid (R21). -/
  hdrv : Bool
  /-- `CERR`, a host action was refused (R24). -/
  cerr : Bool
  /-- `CAUSE` (R25). -/
  cause : Cause
  /-- `SRC`; `SRC_LEN` is its length (R30, 20 R40). -/
  src : List Byte
  /-- `SCUR` (R30). -/
  scur : Nat
  /-- The turns still to be taken. (log 4) -/
  agenda : List Turn
  /-- What the last host read gave back; `none` before any read and after one that had no value. (log 9) -/
  rdata : Option Datum
  /-- The result of the last value-producing micro-operation, not architectural (R29). (log 9) -/
  wire : Option Datum
  /-- The run is marked refused (43 R165). (log 5) -/
  marked : Bool
  deriving DecidableEq, Repr

/-- Reasons the machine stops. The block's own faults are states (60 R183), not reasons of this type. -/
inductive Fault where
  /-- Raised by a host read of a canvas address above 32767, which "does not exist" (43 R164); safe. (log 14) -/
  | noSuchPixel (address : Nat)
  deriving DecidableEq, Repr

/-- Reasons a step has no meaning. -/
inductive Refusal where
  /-- Raised by `exec` for an instruction that has no meaning yet; safe. -/
  | notModelled (mnemonic : String)
  /-- Raised by a sequencer step or a micro-operation asked for where the spec does not enable it (41 R124, R125,
  42 R141); `step` never asks for one there; safe. (log 10) -/
  | notEnabled (mnemonic : String)
  /-- Raised by TDECODE and EMIT_STEP when a plane byte holds `no value`, which "a block rule never reads" (10 R10); no
  state that a run reaches has it (10 R32 item 6); safe. (log 11) -/
  | noValue (mnemonic : String)
  /-- Raised by a SEEK while ST is not IDLE: "the model gives the host no such move" (70 R207); safe. (log 13) -/
  | seekWhileBusy
  /-- Raised by a record of the wrong length; `step` hands over records of the right length only (30 R70); safe. -/
  | badRecord (length : Nat)
  deriving DecidableEq, Repr

/-- The state at the start of a run: the block right after reset (10_state.md R31), the environment as Config gives it,
and nothing on the agenda. -/
def State.reset : State where
  st := .idle
  tn := 0
  bc := 0
  cha := Vector.replicate 8 none
  chb := Vector.replicate 8 none
  pal := Vector.ofFn Config.defaultColour
  canvas := []
  cvv := false
  sig := Vector.replicate 4 none
  prg := none
  chr := none
  hdrv := false
  cerr := false
  cause := .none
  src := Config.source
  scur := Config.startCursor
  agenda := []
  rdata := none
  wire := none
  marked := false

end Sys2Proof.Machine
end

