-- ==== Sys2Proof/Machine/Operands.lean ====
section
/-!
DEFINITION. Operand assembly (30_encoding.md R79 to R82) and the pure functions of the tile decoder, the LUT and the
signature comparison (40_tile_decode.md, 42_header_validator.md R142).
-/
namespace Sys2Proof.Machine

open Sys2Proof

/-- `bit(v, k)`: `(v >> k) & 1` (00_scope.md R7). -/
def bit (v : Byte) (k : Nat) : Nat := (v.toNat >>> k) &&& 1

/-- `PIXIDX(a, b, c) = bit(a, 7 - c) + 2 * bit(b, 7 - c)` (40 R102, 30 R79). -/
def pixidx (a b : Byte) (c : Fin 8) : BitVec 2 :=
  BitVec.ofNat 2 (bit a (7 - c.val) + 2 * bit b (7 - c.val))

/-- One column of the mask form with mask `m` (40 R103). -/
def maskIndex (a b m : Byte) : Nat :=
  (if a &&& m ≠ 0 then 1 else 0) + 2 * (if b &&& m ≠ 0 then 1 else 0)

/-- `n` columns of the mask form, starting with mask `m` and shifting it right by one each column (40 R103). -/
def maskColumns (a b : Byte) : Nat → Byte → List Nat
  | 0, _ => []
  | n + 1, m => maskIndex a b m :: maskColumns a b n (m >>> 1)

/-- The mask form of one row: 8 columns from mask 0x80 (40 R103). -/
def maskRow (a b : Byte) : List Nat := maskColumns a b 8 0x80

/-- `LUT(idx) = PAL[idx]` (40 R104). -/
def lut (P : Palette) (idx : BitVec 2) : Color := P[idx.toNat]'(by have := idx.isLt; omega)

/-- `TILEIDX(A, B)`: the index grid of a record (40 R105). -/
def tileIndex (A B : Plane) : Grid :=
  Vector.ofFn fun r => Vector.ofFn fun c => pixidx A[r] B[r] c

/-- The colours of an index grid. -/
def colourGrid (P : Palette) (g : Grid) : Tile :=
  Vector.ofFn fun r => Vector.ofFn fun c => lut P g[r][c]

/-- `TDECODE(A, B, P)`: `tile[r][c] = P[PIXIDX(A[r], B[r], c)]` (40 R105). -/
def tdecode (A B : Plane) (P : Palette) : Tile :=
  Vector.ofFn fun r => Vector.ofFn fun c => lut P (pixidx A[r] B[r] c)

/-- The packed row `idx[0] ∥ ... ∥ idx[7]`, column 0 in the high bits (40 R109). -/
def packedRow (a b : Byte) : BitVec 16 :=
  pixidx a b 0 ++ pixidx a b 1 ++ pixidx a b 2 ++ pixidx a b 3
    ++ pixidx a b 4 ++ pixidx a b 5 ++ pixidx a b 6 ++ pixidx a b 7

/-- The sum over the columns of a row of `f` of the index times `2^(7-c)` (30 R82). -/
def rowByte (f : Nat → Nat) (row : Vector (BitVec 2) 8) : Byte :=
  BitVec.ofNat 8 ((List.finRange 8).foldl (fun acc c => acc + f row[c].toNat * 2 ^ (7 - c.val)) 0)

/-- Channel A of the record that decodes to a grid: `g[r][c] mod 2` weighted by `2^(7-c)` (30 R82). -/
def gridPlaneA (g : Grid) : Plane := Vector.ofFn fun r => rowByte (· % 2) g[r]

/-- Channel B of the record that decodes to a grid: `g[r][c] div 2` weighted by `2^(7-c)` (30 R82). -/
def gridPlaneB (g : Grid) : Plane := Vector.ofFn fun r => rowByte (· / 2) g[r]

/-- `x0`, the first pixel column of tile `n` (30 R80). -/
def tileX (n : Nat) : Nat := (n % 16) * 8

/-- `y0`, the first pixel row of tile `n` (30 R80). -/
def tileY (n : Nat) : Nat := (n / 16) * 8

/-- The canvas address of row `r`, column `c` of tile `n` (30 R81, 41 R120). -/
def pixelAddress (n r c : Nat) : Nat := (tileY n + r) * 128 + (tileX n + c)

/-- The tile that covers canvas address `a`: `(y div 8)*16 + (x div 8)` with `x = a mod 128`, `y = a div 128` (41 R128). -/
def tileOfAddress (a : Nat) : Nat := (a / 128 / 8) * 16 + a % 128 / 8

/-- The signature constant `4E 45 53 1A` (00_scope.md R5). -/
def signature : List Byte := [0x4E, 0x45, 0x53, 0x1A]

/-- `IS_VALID_SIGNATURE`: byte for byte and in length equal to the constant (42 R142). -/
def isValidSignature (bytes : List Byte) : Bool := bytes == signature

/-- `BankOffset(prg, k)`, a formula of the host (20_memory.md R45). -/
def bankOffset (prg k : Nat) : Nat := 16 + 16384 * prg + 8192 * k

/-- The values of a register array if each of its elements holds one (10_state.md R10). -/
def allValues {α : Type} {n : Nat} (v : Vector (Option α) n) : Option (Vector α n) :=
  if h : ∀ i : Fin n, v[i].isSome then some (Vector.ofFn fun i => v[i].get (h i)) else none

/-- A register array that holds the given values. -/
def holding {α : Type} {n : Nat} (v : Vector α n) : Vector (Option α) n :=
  Vector.ofFn fun i => some v[i]

end Sys2Proof.Machine
end

