-- ==== Sys2Proof/Machine/Flags.lean ====
section
/-!
DEFINITION. The flags, codes and derived values a host can see: STATUS and its fields (10_state.md R12, R25, R27), SIGOK
(R22), and the phases (60_exceptions.md R192, R193).
-/
namespace Sys2Proof.Machine

open Sys2Proof

/-- The 3-bit code of `ST` (10_state.md R12). -/
def Seq.code : Seq → BitVec 3
  | .idle => 0
  | .hdr => 1
  | .fetch => 2
  | .emit => 3
  | .fault => 7

/-- The 2-bit code of `CAUSE` (10_state.md R25). -/
def Cause.code : Cause → BitVec 2
  | .none => 0
  | .hdrUnderrun => 1
  | .bankUnderrun => 2

/-- `STATUS = CAUSE ∥ CERR ∥ CVV ∥ HDRV ∥ ST` (10_state.md R27). -/
def State.status (s : State) : BitVec 8 :=
  s.cause.code ++ BitVec.ofBool s.cerr ++ BitVec.ofBool s.cvv ++ BitVec.ofBool s.hdrv ++ s.st.code

/-- `SIGOK`, a function of `SIG`; it has a value only while `HDRV` = 1 (10_state.md R22). -/
def State.sigok (s : State) : Option Bool :=
  if s.hdrv then (allValues s.sig).map fun v => isValidSignature v.toList else none

/-- A header register as the host may read it: it holds a value only while `HDRV` = 1 (10_state.md R21, R27). -/
def State.headerByte (s : State) (v : Option Byte) : Option Datum :=
  if s.hdrv then v.map .bits8 else none

/-- The position `16 x TN + BC`: bank bytes consumed so far (10_state.md R13). -/
def State.position (s : State) : Nat := 16 * s.tn.toNat + s.bc.toNat

/-- `done = (ST = IDLE)`, which a platform may derive (60 R192). -/
def State.done (s : State) : Bool := s.st == .idle

/-- `fault = (ST = FAULT)`, which a platform may derive (60 R192). -/
def State.faulted (s : State) : Bool := s.st == .fault

/-- The running phase: `ST` ∈ {HDR, FETCH, EMIT} (60 R193). -/
def State.running (s : State) : Bool := s.st == .hdr || s.st == .fetch || s.st == .emit

end Sys2Proof.Machine
end

