-- ==== Sys2Proof/Machine/Ops.lean ====
section
/-!
DEFINITION. The named operations over canvas, stream and registers: pixel read and write, `StreamNext`, fault entry,
refusal, a read given back to the host, the two command starts, the storing of a stream byte, placing a tile, reset.
-/
namespace Sys2Proof.Machine

open Sys2Proof

/-- `MemRead(CANVAS, a, 1)`: the colour at `a`, or `no value` (20_memory.md R47). -/
def Memory.read : Memory → Nat → Option Color
  | [], _ => none
  | (b, colour) :: rest, a => if a = b then some colour else Memory.read rest a

/-- `MemWrite(CANVAS, a, 1, colour)`: an opaque overwrite that keeps the list in its one form (41 R122). -/
def Memory.write : Memory → Nat → Color → Memory
  | [], a, colour => [(a, colour)]
  | (b, old) :: rest, a, colour =>
    if a < b then (a, colour) :: (b, old) :: rest
    else if a = b then (a, colour) :: rest
    else (b, old) :: Memory.write rest a colour

/-- One row of `TPLACE`: columns 0 to 7 (41 R120). -/
def placeRow (n r : Nat) (row : Vector Color 8) (m : Memory) : Memory :=
  (List.finRange 8).foldl (fun m c => m.write (pixelAddress n r c.val) row[c]) m

/-- `TPLACE(n, tile)`: the 64 writes in row-major order (41 R120). -/
def placeTile (n : Nat) (t : Tile) (m : Memory) : Memory :=
  (List.finRange 8).foldl (fun m r => placeRow n r.val t[r] m) m

/-- `SCUR <- SCUR + 1` (20_memory.md R41). -/
def State.advanceCursor (s : State) : State := { s with scur := s.scur + 1 }

/-- `StreamNext()`: the next byte and the cursor moved by one, or `none` for `EOS`, which moves nothing (20_memory.md R41). -/
def State.streamNext (s : State) : Option (Byte × State) :=
  match s.src[s.scur]? with
  | some v => some (v, s.advanceCursor)
  | none => none

/-- Fault entry, `raise F` (60_exceptions.md R183). -/
def State.raiseFault (cause : Cause) (s : State) : State :=
  { s with
    cause := cause, st := .fault, cvv := false, canvas := [], hdrv := false
    sig := Vector.replicate 4 none, prg := none, chr := none }

/-- The refusal of a host action: its whole effect is `CERR <- 1` (43_control_commands.md R160). -/
def State.refuseAction (s : State) : State := { s with cerr := true }

/-- What a host read gives back. A read of `no value` gives nothing and marks the run as refused, sets no flag and changes
no block state (43_control_commands.md R165). (log 5) -/
def State.deliver (value : Option Datum) (s : State) : State :=
  { s with rdata := value, marked := s.marked || value.isNone }

/-- `StartReadHeader()` (43_control_commands.md R157). -/
def State.startReadHeader (s : State) : State :=
  { s with hdrv := false, sig := Vector.replicate 4 none, prg := none, chr := none, bc := 0, st := .hdr }

/-- `StartDecodeBank()` (43_control_commands.md R158). -/
def State.startDecodeBank (s : State) : State :=
  { s with cvv := false, canvas := [], tn := 0, bc := 0, st := .fetch }

/-- The condition a FETCH step is written for: `ST = FETCH, 0 <= BC <= 15, 0 <= TN <= 511` (41 R124). -/
abbrev State.fetchReady (s : State) : Prop := s.st = .fetch ∧ s.bc.toNat ≤ 15 ∧ s.tn.toNat ≤ 511

/-- The condition an EMIT step is written for: `ST = EMIT, BC = 16, 0 <= TN <= 511` (41 R125). -/
abbrev State.emitReady (s : State) : Prop := s.st = .emit ∧ s.bc = 16 ∧ s.tn.toNat ≤ 511

/-- The condition an HDR step is written for: `ST = HDR, 0 <= BC <= 5` (42 R141). -/
abbrev State.hdrReady (s : State) : Prop := s.st = .hdr ∧ s.bc.toNat ≤ 5

/-- A stream byte goes to `CHA[BC]` or `CHB[BC - 8]`, and `BC` counts it (41 R124, 10_state.md R15). -/
def State.takePlaneByte (v : Byte) (s : State) : State :=
  if s.bc.toNat < 8 then { s with cha := s.cha.setIfInBounds s.bc.toNat (some v), bc := s.bc + 1 }
  else { s with chb := s.chb.setIfInBounds (s.bc.toNat - 8) (some v), bc := s.bc + 1 }

/-- `if BC = 16 then ST <- EMIT`, on the new value (41 R124). -/
def State.closeRecord (s : State) : State := if s.bc = 16 then { s with st := .emit } else s

/-- A stream byte goes to `SIG[BC]`, `PRG` or `CHR`, and `BC` counts it (42 R141, 10_state.md R15). -/
def State.takeHeaderByte (v : Byte) (s : State) : State :=
  if s.bc.toNat < 4 then { s with sig := s.sig.setIfInBounds s.bc.toNat (some v), bc := s.bc + 1 }
  else if s.bc.toNat = 4 then { s with prg := some v, bc := s.bc + 1 }
  else { s with chr := some v, bc := s.bc + 1 }

/-- `if BC = 6 then HDRV <- 1; BC <- 0; ST <- IDLE`, on the new value (42 R141). -/
def State.closeHeader (s : State) : State :=
  if s.bc = 6 then { s with hdrv := true, bc := 0, st := .idle } else s

/-- `n` bytes of a tile record read in a row, with `BC` as the loop counter (40 R101); the first `EOS` is the fault. -/
def State.fetchBytes : Nat → State → State
  | 0, s => s.closeRecord
  | n + 1, s =>
    match s.streamNext with
    | some (v, s1) => State.fetchBytes n (s1.takePlaneByte v)
    | none => s.raiseFault .bankUnderrun

/-- The end of an EMIT step: the tile is counted, and tile 511 completes the image (41 R125). -/
def State.advanceTile (s : State) : State :=
  if s.tn.toNat + 1 = 512 then { s with tn := s.tn + 1, bc := 0, cvv := true, st := .idle }
  else { s with tn := s.tn + 1, bc := 0, st := .fetch }

/-- The EMIT step on planes that hold `A` and `B`: TDECODE, TPLACE at `TN`, then the count (41 R125). -/
def State.emitTile (A B : Plane) (s : State) : State :=
  State.advanceTile { s with canvas := placeTile s.tn.toNat (tdecode A B s.pal) s.canvas }

/-- `Reset()`: every piece of block state at its reset value; the stream, its cursor and the host's side are not touched
(70_reset_and_hazards.md R200). -/
def State.resetBlock (s : State) : State :=
  { s with
    st := .idle, tn := 0, bc := 0
    cha := Vector.replicate 8 none, chb := Vector.replicate 8 none
    pal := Vector.ofFn Config.defaultColour
    canvas := [], cvv := false, hdrv := false, cerr := false, cause := .none
    sig := Vector.replicate 4 none, prg := none, chr := none }

end Sys2Proof.Machine
end

