-- ==== Sys2Proof/Machine/Commands.lean ====
section
/-!
DEFINITION. Family 43, command writes: NOP, READ_HEADER, DECODE_BANK and the reserved codes (43_control_commands.md R155 to R160).
-/
namespace Sys2Proof.Machine

open Sys2Proof

/-- What every instruction answers. -/
abbrev Answer := Host.Outcome State Fault Refusal

/-- NOP: no effect at all, in every state (R156). -/
def execNop (s : State) : Answer := .next s

/-- READ_HEADER: accepted only while IDLE, else refused (R157). -/
def execReadHeader (s : State) : Answer :=
  if s.st = .idle then .next s.startReadHeader else .next s.refuseAction

/-- DECODE_BANK: accepted only while IDLE, else refused (R158). -/
def execDecodeBank (s : State) : Answer :=
  if s.st = .idle then .next s.startDecodeBank else .next s.refuseAction

/-- Reserved code 0x03: refused in every state (R159). -/
def execReserved03 (s : State) : Answer := .next s.refuseAction

/-- Reserved codes 0x04 to 0x07 (R159). -/
def execReserved04to07 (_ : BitVec 2) (s : State) : Answer := .next s.refuseAction

/-- Reserved codes 0x08 to 0x0F (R159). -/
def execReserved08to0F (_ : BitVec 3) (s : State) : Answer := .next s.refuseAction

/-- Reserved codes 0x10 to 0x1F (R159). -/
def execReserved10to1F (_ : BitVec 4) (s : State) : Answer := .next s.refuseAction

/-- Reserved codes 0x20 to 0x3F (R159). -/
def execReserved20to3F (_ : BitVec 5) (s : State) : Answer := .next s.refuseAction

/-- Reserved codes 0x40 to 0x7F (R159). -/
def execReserved40to7F (_ : BitVec 6) (s : State) : Answer := .next s.refuseAction

/-- Reserved codes 0x80 to 0xFF (R159). -/
def execReserved80toFF (_ : BitVec 7) (s : State) : Answer := .next s.refuseAction

end Sys2Proof.Machine
end

