-- ==== Sys2Proof/Machine/Header.lean ====
section
/-!
DEFINITION. Family 42, header validator: the HDR record, IS_VALID_SIGNATURE, the HDR step (42_header_validator.md).
-/
namespace Sys2Proof.Machine

open Sys2Proof

/-- One HDR record taken whole where a header read starts: the result registers are its fields and the stream has advanced
by 6, as after six HDR steps (R140, 30 R74). (log 15) -/
def execHdr (signature : Vector Byte 4) (prgCount chrCount : Byte) (s : State) : Answer :=
  if s.st = .hdr ∧ s.bc = 0 then
    .next { s with
      sig := holding signature, prg := some prgCount, chr := some chrCount
      scur := s.scur + 6, hdrv := true, bc := 0, st := .idle }
  else .refused (.notEnabled "HDR")

/-- IS_VALID_SIGNATURE of an operand (R142). (log 23) -/
def execIsValidSignature (bytes : List Byte) (s : State) : Answer :=
  .next { s with wire := some (.bits1 (BitVec.ofBool (isValidSignature bytes))) }

/-- The HDR step: one stream byte, or HDR_UNDERRUN (R141). -/
def execHdrStep (s : State) : Answer :=
  if s.hdrReady then
    match s.streamNext with
    | some (v, s1) => .next (s1.takeHeaderByte v).closeHeader
    | none => .next (s.raiseFault .hdrUnderrun)
  else .refused (.notEnabled "HDR_STEP")

end Sys2Proof.Machine
end

