-- ==== Sys2Proof/Machine/Raster.lean ====
section
/-!
DEFINITION. Family 41, raster composer and sequencer: TPLACE, the FETCH step, the EMIT step (41_raster_compose.md).
-/
namespace Sys2Proof.Machine

open Sys2Proof

/-- TPLACE(n, tile): 64 canvas writes, made only inside an EMIT step (R120; 20_memory.md R48). (log 10) -/
def execTplace (n : BitVec 10) (t : Tile) (s : State) : Answer :=
  if s.st = .emit ∧ n.toNat ≤ 511 then .next { s with canvas := placeTile n.toNat t s.canvas }
  else .refused (.notEnabled "TPLACE")

/-- The FETCH step: one stream byte, or BANK_UNDERRUN (R124). -/
def execFetchStep (s : State) : Answer :=
  if s.fetchReady then
    match s.streamNext with
    | some (v, s1) => .next (s1.takePlaneByte v).closeRecord
    | none => .next (s.raiseFault .bankUnderrun)
  else .refused (.notEnabled "FETCH_STEP")

/-- The EMIT step: one tile decoded, placed and counted, atomically (R125). -/
def execEmitStep (s : State) : Answer :=
  if s.emitReady then
    match allValues s.cha, allValues s.chb with
    | some A, some B => .next (s.emitTile A B)
    | _, _ => .refused (.noValue "EMIT_STEP")
  else .refused (.notEnabled "EMIT_STEP")

end Sys2Proof.Machine
end

