-- ==== Sys2Proof/Machine/Registers.lean ====
section
/-!
DEFINITION. Family 43, palette writes and host reads (43_control_commands.md R161 to R166; register map 10_state.md R27).
-/
namespace Sys2Proof.Machine

open Sys2Proof

/-- LDPAL i, v: accepted only while IDLE, else refused (R161). -/
def execLdpal (i : BitVec 2) (v : Color) (s : State) : Answer :=
  if s.st = .idle then .next { s with pal := s.pal.setIfInBounds i.toNat v } else .next s.refuseAction

/-- RD STATUS, in any state (R162, R163). -/
def execRdStatus (s : State) : Answer := .next (s.deliver (some (.bits8 s.status)))

/-- RD TN, in any state (R162). -/
def execRdTn (s : State) : Answer := .next (s.deliver (some (.bits10 s.tn)))

/-- RD BC, in any state (R162). -/
def execRdBc (s : State) : Answer := .next (s.deliver (some (.bits5 s.bc)))

/-- RD PALi, in any state (R162). -/
def execRdPal (i : BitVec 2) (s : State) : Answer := .next (s.deliver (some (.colour (lut s.pal i))))

/-- RD SIGi, a value only while HDRV = 1 (R162, R165). -/
def execRdSig (i : BitVec 2) (s : State) : Answer :=
  .next (s.deliver (s.headerByte (s.sig[i.toNat]'(by have := i.isLt; omega))))

/-- RD PRG, a value only while HDRV = 1 (R162, R165). -/
def execRdPrg (s : State) : Answer := .next (s.deliver (s.headerByte s.prg))

/-- RD CHR, a value only while HDRV = 1 (R162, R165). -/
def execRdChr (s : State) : Answer := .next (s.deliver (s.headerByte s.chr))

/-- RD SIGOK, a value only while HDRV = 1 (R162, R165; 10_state.md R22). -/
def execRdSigok (s : State) : Answer :=
  .next (s.deliver (s.sigok.map fun ok => .bits1 (BitVec.ofBool ok)))

/-- RDPIX: a colour only while CVV = 1 (R164, R165). -/
def execRdpix (a : BitVec 15) (s : State) : Answer :=
  .next (s.deliver (if s.cvv then (s.canvas.read a.toNat).map .colour else none))

end Sys2Proof.Machine
end

