-- ==== Sys2Proof/Machine/Reset.lean ====
section
/-!
DEFINITION. The reset event (70_reset_and_hazards.md R200).
-/
namespace Sys2Proof.Machine

open Sys2Proof

/-- RESET, at any time and in any state (R200, R202). -/
def execReset (s : State) : Answer := .next s.resetBlock

end Sys2Proof.Machine
end

