-- ==== Sys2Proof/Machine/Tile.lean ====
section
/-!
DEFINITION. Family 40, tile decoder and LUT: the TILE record, TFETCH, PIXIDX, LUT, TDECODE (40_tile_decode.md).
-/
namespace Sys2Proof.Machine

open Sys2Proof

/-- One TILE record taken whole where a tile fetch starts: the planes are `A` and `B` (30 R71), the stream has advanced by
16 (40 R101), the record is complete as after 16 FETCH steps, and its decode (40 R105) is on the wire. (log 15) -/
def execTile (A B : Plane) (s : State) : Answer :=
  if s.fetchReady ∧ s.bc = 0 then
    .next { s with
      cha := holding A, chb := holding B, scur := s.scur + 16, bc := 16, st := .emit
      wire := some (.tile (tdecode A B s.pal)) }
  else .refused (.notEnabled "TILE")

/-- TFETCH: 16 stream bytes into the plane buffers, or BANK_UNDERRUN at the first `EOS` (R101). (log 16) -/
def execTfetch (s : State) : Answer :=
  if s.fetchReady ∧ s.bc = 0 then .next (s.fetchBytes 16) else .refused (.notEnabled "TFETCH")

/-- PIXIDX(a, b, c) (R102). -/
def execPixidx (a b : Byte) (c : Fin 8) (s : State) : Answer :=
  .next { s with wire := some (.index (pixidx a b c)) }

/-- LUT(idx) (R104). -/
def execLut (idx : BitVec 2) (s : State) : Answer :=
  .next { s with wire := some (.colour (lut s.pal idx)) }

/-- TDECODE of `CHA`, `CHB` with `PAL` (R105). -/
def execTdecode (s : State) : Answer :=
  match allValues s.cha, allValues s.chb with
  | some A, some B => .next { s with wire := some (.tile (tdecode A B s.pal)) }
  | _, _ => .refused (.noValue "TDECODE")

end Sys2Proof.Machine
end

