-- ==== Sys2Proof/Machine/Dispatch.lean ====
section
/-!
DEFINITION. One arm per operation of the opcode table.
-/
namespace Sys2Proof.Machine

open Sys2Proof

/-- The effect of one operation. -/
def exec (i : Instr) (s : State) : Host.Outcome State Fault Refusal :=
  match i with
  | .nop => Sys2Proof.Machine.execNop s
  | .readHeader => Sys2Proof.Machine.execReadHeader s
  | .decodeBank => Sys2Proof.Machine.execDecodeBank s
  | .reserved03 => Sys2Proof.Machine.execReserved03 s
  | .reserved04to07 x => Sys2Proof.Machine.execReserved04to07 x s
  | .reserved08to0F x => Sys2Proof.Machine.execReserved08to0F x s
  | .reserved10to1F x => Sys2Proof.Machine.execReserved10to1F x s
  | .reserved20to3F x => Sys2Proof.Machine.execReserved20to3F x s
  | .reserved40to7F x => Sys2Proof.Machine.execReserved40to7F x s
  | .reserved80toFF x => Sys2Proof.Machine.execReserved80toFF x s
  | .ldpal k v => Sys2Proof.Machine.execLdpal k v s
  | .rdStatus => Sys2Proof.Machine.execRdStatus s
  | .rdTn => Sys2Proof.Machine.execRdTn s
  | .rdBc => Sys2Proof.Machine.execRdBc s
  | .rdPal k => Sys2Proof.Machine.execRdPal k s
  | .rdSig k => Sys2Proof.Machine.execRdSig k s
  | .rdPrg => Sys2Proof.Machine.execRdPrg s
  | .rdChr => Sys2Proof.Machine.execRdChr s
  | .rdSigok => Sys2Proof.Machine.execRdSigok s
  | .rdpix a => Sys2Proof.Machine.execRdpix a s
  | .tile A B => Sys2Proof.Machine.execTile A B s
  | .hdr signature prgCount chrCount => Sys2Proof.Machine.execHdr signature prgCount chrCount s
  | .isValidSignature bytes => Sys2Proof.Machine.execIsValidSignature bytes s
  | .tfetch => Sys2Proof.Machine.execTfetch s
  | .pixidx a b c => Sys2Proof.Machine.execPixidx a b c s
  | .lut idx => Sys2Proof.Machine.execLut idx s
  | .tdecode => Sys2Proof.Machine.execTdecode s
  | .tplace n t => Sys2Proof.Machine.execTplace n t s
  | .fetchStep => Sys2Proof.Machine.execFetchStep s
  | .emitStep => Sys2Proof.Machine.execEmitStep s
  | .hdrStep => Sys2Proof.Machine.execHdrStep s
  | .reset => Sys2Proof.Machine.execReset s

end Sys2Proof.Machine
end

