-- ==== Sys2Proof/Machine/Sequence.lean ====
section
/-!
DEFINITION. Who moves next and how: the sequencer's own steps, the turns of the agenda, and where a table word is put so
that the next step runs it (43_control_commands.md R155, R170; 60_exceptions.md R186, R187).
-/
namespace Sys2Proof.Machine

open Sys2Proof

/-- The block's next small step. In IDLE and FAULT it has none, and a step of the machine then leaves everything as it is
(60 R186, R193). (log 17) -/
def blockStep (s : State) : Answer :=
  match s.st with
  | .idle => .next s
  | .hdr => exec .hdrStep s
  | .fetch => exec .fetchStep s
  | .emit => exec .emitStep s
  | .fault => .next s

/-- What happens on something that decodes to no operation: a refused write (43 R166), a read that has no value (R165), an
address that does not exist (R164), a record of the wrong length. -/
def onReject (r : Reject) (s : State) : Answer :=
  match r with
  | .noRegisterWrite _ => .next s.refuseAction
  | .noRegisterRead _ => .next (s.deliver none)
  | .noPixel address => .fault (.noSuchPixel address)
  | .recordLength length => .refused (.badRecord length)

/-- Decode, then run. -/
def runEncoded (e : Encoded) (s : State) : Answer :=
  match decode e with
  | .ok i => exec i s
  | .error r => onReject r s

/-- The next `n` bytes of the stream, if it holds that many from the cursor on. -/
def State.nextBytes (n : Nat) (s : State) : Option (List Byte) :=
  if s.scur + n ≤ s.src.length then some ((s.src.drop s.scur).take n) else none

/-- The block at the grain of whole records (41 R132): where a tile fetch or a header read starts, the record at the cursor
is decoded and run; where the stream is too short for one, and everywhere else, the rules of R101, R141 and R125. (log 15) -/
def recordStep (s : State) : Answer :=
  if s.st = .fetch ∧ s.bc = 0 then
    match s.nextBytes 16 with
    | some bytes => runEncoded (.tile bytes) s
    | none => exec .tfetch s
  else if s.st = .hdr ∧ s.bc = 0 then
    match s.nextBytes 6 with
    | some bytes => runEncoded (.hdr bytes) s
    | none => exec .hdrStep s
  else blockStep s

/-- The comparison of `SIG[0..3]` with the signature; it has a result only while HDRV = 1 (10 R22, 42 R142). (log 23) -/
def compareSignature (s : State) : Answer :=
  match (if s.hdrv then allValues s.sig else none) with
  | some v => runEncoded (.sig4 v.toList) s
  | none => .next { s with wire := none }

/-- SEEK: the host positions the stream, only while IDLE (10 R30, 70 R207). (log 12, 13) -/
def seek (offset : Nat) (s : State) : Answer :=
  if s.st = .idle then .next { s with scur := offset } else .refused .seekWhileBusy

/-- One turn, taken on the state with that turn off the agenda. -/
def takeTurn (t : Turn) (s : State) : Answer :=
  match t with
  | .access a => runEncoded (.access a) s
  | .reset => exec .reset s
  | .seek offset => seek offset s
  | .wait => .next s
  | .block => blockStep s
  | .record => recordStep s
  | .compare => compareSignature s

/-- One step of block and host together: the first turn of the agenda, `wait` staying there while the block runs; with an
empty agenda the block's own step. (log 4) -/
def machineStep (s : State) : Answer :=
  match s.agenda with
  | [] => blockStep s
  | t :: rest =>
    if t = .wait ∧ s.running = true then blockStep s else takeTurn t { s with agenda := rest }

/-- `s` with a table word put where the next step takes it: a command word or a canvas address as the host's next access;
a TILE or HDR record as the whole stream, the sequencer standing where it takes one; a SIG4 in `SIG[0..3]`, with the
comparison as the next turn. (log 3, 18) -/
def State.placeWord (s : State) (nbits w : Nat) : State :=
  match encodedOfTableWord nbits w with
  | some (.access a) => { s with agenda := .access a :: s.agenda }
  | some (.tile bytes) =>
    { s with
      agenda := .record :: s.agenda, src := bytes, scur := 0, st := .fetch, bc := 0, cvv := false
      tn := if s.tn.toNat ≤ 511 then s.tn else 0 }
  | some (.hdr bytes) =>
    { s with agenda := .record :: s.agenda, src := bytes, scur := 0, st := .hdr, bc := 0, hdrv := false }
  | some (.sig4 bytes) =>
    { s with agenda := .compare :: s.agenda, sig := holding (bytesVector 4 bytes), hdrv := true }
  | none => s

end Sys2Proof.Machine
end

