-- ==== Sys2Proof/Machine/Step.lean ====
section
/-!
DEFINITION. The step of the machine, and the host's way to have a table word run next.
-/
namespace Sys2Proof.Machine

open Sys2Proof

/-- One atomic step of block and host (43_control_commands.md R155). -/
def step (s : State) : Host.Outcome State Fault Refusal := machineStep s

/-- `s` with the operation of a table word as what the very next step runs. -/
def State.withFetchWord (s : State) (nbits w : Nat) : State := s.placeWord nbits w

end Sys2Proof.Machine
end

