-- ==== Sys2Proof/Machine/BigStep.lean ====
section
/-!
DEFINITION. The whole-operation forms the spec gives beside the steps: READ_HEADER (42 R140), DECODE_BANK (41 R123), the Bank
Image in closed form (41 R128), and the host's turns for a whole file (43 R171).
-/
namespace Sys2Proof.Machine

open Sys2Proof

/-- `k` steps of the machine, ending at the first stop. -/
def runSteps : Nat → State → Answer
  | 0, s => .next s
  | k + 1, s =>
    match step s with
    | .next t => runSteps k t
    | .fault r => .fault r
    | .refused r => .refused r

/-- `n` bytes of a header read in a row (42 R140). -/
def State.headerBytes : Nat → State → State
  | 0, s => s.closeHeader
  | n + 1, s =>
    match s.streamNext with
    | some (v, s1) => State.headerBytes n (s1.takeHeaderByte v)
    | none => s.raiseFault .hdrUnderrun

/-- `READ_HEADER()`, from the state its command leaves (42 R140). -/
def State.readHeaderWhole (s : State) : State := s.headerBytes 6

/-- The last `n` tiles of `DECODE_BANK()`: `ty` and `tx` run through `512 - n = ty*16 + tx` (41 R123). -/
def State.decodeTiles : Nat → State → State
  | 0, s => { s with cvv := true, st := .idle }
  | n + 1, s =>
    let fetched := s.fetchBytes 16
    match fetched.st, allValues fetched.cha, allValues fetched.chb with
    | .emit, some A, some B =>
      State.decodeTiles n { fetched with
        canvas := placeTile (512 - (n + 1)) (tdecode A B fetched.pal) fetched.canvas
        tn := fetched.tn + 1, bc := 0, st := .fetch }
    | _, _, _ => fetched

/-- `DECODE_BANK()`, from the state its command leaves (41 R123). -/
def State.decodeBankWhole (s : State) : State := s.decodeTiles 512

/-- The colour of pixel `(x, y)` of the Bank Image of bytes `S` with palette `P` (41 R128). -/
def bankPixel (S : List Byte) (P : Palette) (x y : Nat) : Color :=
  let n := (y / 8) * 16 + x / 8
  let r := y % 8
  lut P (pixidx (S.getD (16 * n + r) 0) (S.getD (16 * n + 8 + r) 0) ⟨x % 8, Nat.mod_lt x (by decide)⟩)

/-- The host's turns for a file whose header is valid and announces `prg` and `chr` banks, with all pixels of each image
read out (43 R171). -/
def extractTurns (prg chr : Nat) : List Turn :=
  [.reset, .seek 0, .access (.write 0 0x01 0), .wait, .access (.read 1), .access (.read 14), .access (.read 13),
    .access (.read 12), .seek (bankOffset prg 0)]
  ++ (List.replicate chr
      ([.access (.write 0 0x02 0), .wait, .access (.read 1)]
        ++ (List.range 32768).map fun a => Turn.access (.readPixel a))).flatten

end Sys2Proof.Machine
end

