-- ==== Sys2Proof/Safety.lean ====
section
/-!
DEFINITION. What claims speak of: the invariants of 10_state.md R32, a run that kept the contract, completed operations, the layout
of a well-formed stream (20_memory.md R44).
-/
namespace Sys2Proof

open Sys2Proof.Machine

/-- The invariants of the state (10_state.md R32, with its item numbers), and what makes them inductive. -/
structure Machine.State.Inv (s : State) : Prop where
  /-- Item 2. -/
  hdr : s.st = .hdr → s.bc.toNat ≤ 5 ∧ s.hdrv = false
  /-- Item 3, FETCH. -/
  fetch : s.st = .fetch → s.tn.toNat ≤ 511 ∧ s.bc.toNat ≤ 15 ∧ s.cvv = false
  /-- Item 3, EMIT. -/
  emit : s.st = .emit → s.tn.toNat ≤ 511 ∧ s.bc = 16 ∧ s.cvv = false
  /-- Item 4, a valid image. -/
  valid : s.cvv = true → s.tn = 512 ∧ (s.st = .idle ∨ s.st = .hdr) ∧ ∀ a < 32768, (s.canvas.read a).isSome
  /-- Item 4, IDLE. -/
  idle : s.st = .idle → s.bc = 0
  /-- Item 5. -/
  cause : s.cause ≠ .none ↔ s.st = .fault
  /-- Item 5 and 43 R163: in FAULT nothing is valid. -/
  fault : s.st = .fault → s.cvv = false ∧ s.hdrv = false
  /-- Item 6: in EMIT all plane bytes hold a value. -/
  planes : s.st = .emit → (∀ r : Fin 8, s.cha[r].isSome) ∧ ∀ r : Fin 8, s.chb[r].isSome
  /-- In FETCH the first `BC` plane bytes hold a value. -/
  planesSoFar : s.st = .fetch → (∀ r : Fin 8, r.val < s.bc.toNat → s.cha[r].isSome) ∧
    ∀ r : Fin 8, 8 + r.val < s.bc.toNat → s.chb[r].isSome
  /-- Item 7: during a bank decode exactly the pixels of tiles 0 to TN - 1 hold a value. -/
  image : s.st = .fetch ∨ s.st = .emit →
    ∀ a < 32768, ((s.canvas.read a).isSome ↔ tileOfAddress a < s.tn.toNat)
  /-- Outside a bank decode the canvas is a whole image or empty (60 R183, 70 R200, 43 R158). -/
  noPartialImage : s.st ≠ .fetch → s.st ≠ .emit → s.cvv = false → s.canvas = []
  /-- Item 8. -/
  header : s.hdrv = true → (∀ k : Fin 4, s.sig[k].isSome) ∧ s.prg.isSome ∧ s.chr.isSome
  /-- In HDR the first `BC` header bytes hold a value. -/
  headerSoFar : s.st = .hdr → (∀ k : Fin 4, k.val < s.bc.toNat → s.sig[k].isSome) ∧ (s.bc.toNat = 5 → s.prg.isSome)
  /-- The canvas keeps its one form. -/
  form : Memory.wf s.canvas

/-- The run has kept the contract so far: no action was refused (10_state.md R24) and no read was refused (43 R165). -/
def Machine.State.clean (s : State) : Bool := !s.cerr && !s.marked

/-- A completed DECODE_BANK: IDLE with a valid image (43 R163); false in FAULT (60 R186). -/
def Machine.State.imageReady (s : State) : Bool := s.st == .idle && s.cvv

/-- A completed READ_HEADER: IDLE with a valid header result (43 R163). -/
def Machine.State.headerReady (s : State) : Bool := s.st == .idle && s.hdrv

/-- The layout of a well-formed stream (20_memory.md R44): the signature, the counts `prg` and `chr`, and their banks. R44 and
30_encoding.md R70 give the length of a whole file; DOC00 says nothing of bytes after the last bank (91_not_in_source.md N19),
which no operation of the contract reads, and this predicate admits any number of them. DESIGN CHOICE. (log 29) -/
def WellFormedStream (bytes : List Byte) (prg chr : Byte) : Prop :=
  bytes.take 4 = signature ∧ bytes[4]? = some prg ∧ bytes[5]? = some chr ∧
    16 + 16384 * prg.toNat + 8192 * chr.toNat ≤ bytes.length

end Sys2Proof
end

