-- ==== Sys2Proof/Certificates/Slice0/Obligations.lean ====
section
/-!
DEFINITION. The statements for the provers. Each docstring names the rule of spec/ the statement formalises. Statements
whose conclusion is an equation `exec i s = .next t` are also the completion and the frame of `i`: every field that is
not named in `t` is the one of `s`.
-/

open Sys2Proof Sys2Proof.Machine

/-! ### Encoding and decoding -/

/-- Decoding the encoding of a well-formed operation gives it back, at every operand value (30_encoding.md R71 to R78, R86). -/
def Obligations.EncodeThenDecodeGivesTheInstruction : Prop :=
  ∀ (i : Instr) (e : Encoded), i.wellFormed = true → encode i = some e → decode e = .ok i

/-- R76 and R86: the whole byte is the command; 0x03 to 0xFF are the reserved rows, none of whose bits is dropped. -/
def Obligations.CommandByteIsTheWholeOpcode : Prop :=
  ∀ w : Byte,
    (w = 0x00 → decodeCmd w = .nop) ∧ (w = 0x01 → decodeCmd w = .readHeader) ∧ (w = 0x02 → decodeCmd w = .decodeBank) ∧
    (0x03 ≤ w.toNat → ∀ s : State, exec (decodeCmd w) s = .next { s with cerr := true }) ∧
    encode (decodeCmd w) = some (.access (.write 0x00 w 0))

/-- R27: what a write and a read of each register number stand for; all other numbers are rejected by name. -/
def Obligations.RegisterMapDecides : Prop :=
  ∀ (number byte : Byte) (colour : Color),
    decode (.access (.write number byte colour)) =
      (if number.toNat = 0 then .ok (decodeCmd byte)
       else if 4 ≤ number.toNat ∧ number.toNat ≤ 7 then .ok (.ldpal (BitVec.ofNat 2 (number.toNat - 4)) colour)
       else .error (.noRegisterWrite number)) ∧
    decode (.access (.read number)) =
      (if number.toNat = 1 then .ok .rdStatus else if number.toNat = 2 then .ok .rdTn
       else if number.toNat = 3 then .ok .rdBc
       else if 4 ≤ number.toNat ∧ number.toNat ≤ 7 then .ok (.rdPal (BitVec.ofNat 2 (number.toNat - 4)))
       else if 8 ≤ number.toNat ∧ number.toNat ≤ 11 then .ok (.rdSig (BitVec.ofNat 2 (number.toNat - 8)))
       else if number.toNat = 12 then .ok .rdPrg else if number.toNat = 13 then .ok .rdChr
       else if number.toNat = 14 then .ok .rdSigok else .error (.noRegisterRead number))

/-- Words written out from the spec's encodings decode to the operations they stand for (30 R70, R74, R76, R86, 10 R27, 20 R47,
43 R164, 42 R142). -/
def Obligations.WrittenOutWordsDecode : Prop :=
  decode (.access (.write 0 0x02 0)) = .ok .decodeBank ∧
  decode (.access (.write 0 0x5A 0)) = .ok (.reserved40to7F 0x1A) ∧
  decode (.access (.read 0x0A)) = .ok (.rdSig 2) ∧
  decode (.access (.readPixel 2477)) = .ok (.rdpix 0b000100110101101) ∧
  decode (.hdr [0x4E, 0x45, 0x53, 0x1A, 0x02, 0x01]) = .ok (.hdr #v[0x4E, 0x45, 0x53, 0x1A] 2 1) ∧
  decode (.sig4 [0x4E, 0x45, 0x53, 0x1A]) = .ok (.isValidSignature [0x4E, 0x45, 0x53, 0x1A])

/-- R108 with the encode of R82: grids and records correspond one to one, and on colours only when the palette's are distinct. -/
def Obligations.GridAndRecordCorrespond : Prop :=
  (∀ g : Grid, tileIndex (gridPlaneA g) (gridPlaneB g) = g) ∧
  (∀ A B : Plane, gridPlaneA (tileIndex A B) = A ∧ gridPlaneB (tileIndex A B) = B) ∧
  ∀ P : Palette, (∀ g h : Grid, colourGrid P g = colourGrid P h → g = h) ↔ ∀ i j : BitVec 2, lut P i = lut P j → i = j

/-! ### Tile decoder and LUT -/

/-- R102: the index is the bit of `a` plus twice the bit of `b`, bit `7 - c` of each; nothing else changes. -/
def Obligations.PixidxIsBitOfAPlusTwiceBitOfB : Prop :=
  ∀ (a b : Byte) (c : Fin 8) (s : State), ∃ idx : BitVec 2,
    exec (.pixidx a b c) s = .next { s with wire := some (.index idx) } ∧
    idx.toNat = (a.getLsbD (7 - c.val)).toNat + 2 * (b.getLsbD (7 - c.val)).toNat

/-- R103: the mask form, mask 0x80 shifted right by one each column, gives the same eight indices. -/
def Obligations.MaskFormGivesTheSameIndices : Prop :=
  ∀ a b : Byte, maskRow a b = (List.finRange 8).map fun c => (pixidx a b c).toNat

/-- R106: every index is in 0 to 3, and all four occur in every column. -/
def Obligations.EveryIndexOccursAndNoOther : Prop :=
  ∀ c : Fin 8, (∀ a b : Byte, (pixidx a b c).toNat ≤ 3) ∧ ∀ v : BitVec 2, ∃ a b : Byte, pixidx a b c = v

/-- R109: the packed row is the bit-interleave of `b` (odd bits) and `a` (even bits). -/
def Obligations.PackedRowInterleavesThePlanes : Prop :=
  ∀ (a b : Byte) (k : Nat), k < 8 →
    (packedRow a b).getLsbD (2 * k + 1) = b.getLsbD k ∧ (packedRow a b).getLsbD (2 * k) = a.getLsbD k

/-- R104: `LUT(idx) = PAL[idx]`; nothing else changes. -/
def Obligations.LutReadsThePaletteEntry : Prop :=
  ∀ (idx : Fin 4) (s : State),
    exec (.lut (BitVec.ofFin idx)) s = .next { s with wire := some (.colour s.pal[idx]) }

/-- R105: TDECODE of planes that hold `A` and `B` gives `tile[r][c] = P[PIXIDX(A[r], B[r], c)]`; nothing else changes. -/
def Obligations.TdecodeGivesTheColourGrid : Prop :=
  ∀ (A B : Plane) (s : State), (∀ r : Fin 8, s.cha[r] = some A[r] ∧ s.chb[r] = some B[r]) →
    ∃ t : Tile, exec .tdecode s = .next { s with wire := some (.tile t) } ∧
      ∀ r c : Fin 8, t[r][c] = s.pal[(pixidx A[r] B[r] c).toFin] ∧ (tileIndex A B)[r][c] = pixidx A[r] B[r] c

/-- R101: with 16 bytes available TFETCH stores them, channel A first, and advances the cursor by 16. That it leaves `BC` =
16 and `ST` = EMIT is read from its small-step form (log 16). -/
def Obligations.TfetchFillsThePlanes : Prop :=
  ∀ s : State, s.st = .fetch → s.bc = 0 → s.tn.toNat ≤ 511 → ∀ h : s.scur + 16 ≤ s.src.length,
    exec .tfetch s = .next { s with
      cha := Vector.ofFn fun r : Fin 8 => some (s.src[s.scur + r.val]'(by omega))
      chb := Vector.ofFn fun r : Fin 8 => some (s.src[s.scur + 8 + r.val]'(by omega))
      scur := s.scur + 16, bc := 16, st := .emit }

/-- R101, R183: with fewer than 16 bytes TFETCH raises BANK_UNDERRUN, having stored the bytes there are. That `BC` counts them is
read from its small-step form (log 16). -/
def Obligations.TfetchShortOfARecordFaults : Prop :=
  ∀ s : State, s.st = .fetch → s.bc = 0 → s.tn.toNat ≤ 511 → s.src.length < s.scur + 16 → ∃ t : State,
    exec .tfetch s = .next t ∧ t.st = .fault ∧ t.cause = .bankUnderrun ∧ t.cvv = false ∧ t.hdrv = false ∧
    (∀ a, t.canvas.read a = none) ∧ (∀ k : Fin 4, t.sig[k] = none) ∧ t.prg = none ∧ t.chr = none ∧
    t.tn = s.tn ∧ t.bc.toNat = s.src.length - s.scur ∧ t.scur = max s.scur s.src.length ∧
    (∀ r : Fin 8, t.cha[r] = if s.scur + r.val < s.src.length then s.src[s.scur + r.val]? else s.cha[r]) ∧
    (∀ r : Fin 8, t.chb[r] = if s.scur + 8 + r.val < s.src.length then s.src[s.scur + 8 + r.val]? else s.chb[r]) ∧
    t.pal = s.pal ∧ t.cerr = s.cerr ∧ t.src = s.src ∧ t.agenda = s.agenda ∧ t.rdata = s.rdata ∧ t.wire = s.wire ∧
    t.marked = s.marked

/-- R101, R124: sixteen FETCH steps where a tile fetch starts are one TFETCH, also when the stream ends among them.
The agenda is empty (log 4, 16, 17). -/
def Obligations.SixteenFetchStepsAreOneTfetch : Prop :=
  ∀ s : State, s.agenda = [] → s.st = .fetch → s.bc = 0 → s.tn.toNat ≤ 511 → runSteps 16 s = exec .tfetch s

/-- R71, R101, R105: a TILE record taken where a tile fetch starts fills the planes, advances the cursor by 16, completes
the record, and has the colours of TDECODE; if the stream holds the record, the planes are those of TFETCH (log 15). -/
def Obligations.TileRecordIsFetchedAndDecoded : Prop :=
  ∀ (A B : Plane) (s : State), s.st = .fetch → s.bc = 0 → s.tn.toNat ≤ 511 → ∃ t : State,
    exec (.tile A B) s = .next t ∧
    t = { s with
      cha := Vector.ofFn fun r : Fin 8 => some A[r]
      chb := Vector.ofFn fun r : Fin 8 => some B[r]
      scur := s.scur + 16, bc := 16, st := .emit, wire := some (.tile (tdecode A B s.pal)) } ∧
    ((∀ r : Fin 8, s.src[s.scur + r.val]? = some A[r] ∧ s.src[s.scur + 8 + r.val]? = some B[r]) →
      exec .tfetch s = .next { t with wire := s.wire })

/-! ### Raster composer and sequencer -/

/-- R120, R122: TPLACE writes `tile[r][c]` at row `y0 + r`, column `x0 + c`, and no other pixel; it is one of the EMIT
step's operations (20_memory.md R48, log 10). -/
def Obligations.TplaceWritesItsRectangle : Prop :=
  ∀ (n : BitVec 10) (t : Tile) (s : State), s.st = .emit → n.toNat ≤ 511 → ∃ m : Memory,
    exec (.tplace n t) s = .next { s with canvas := m } ∧
    (∀ r c : Fin 8, m.read (((n.toNat / 16) * 8 + r.val) * 128 + ((n.toNat % 16) * 8 + c.val)) = some t[r][c]) ∧
    ∀ a, (∀ r c : Fin 8, a ≠ ((n.toNat / 16) * 8 + r.val) * 128 + ((n.toNat % 16) * 8 + c.val)) →
      m.read a = s.canvas.read a

/-- R81: the canvas address is `(y0 + r) x 128 + (x0 + c)`, and as bits `n[8:4] ∥ r[2:0] ∥ n[3:0] ∥ c[2:0]`. -/
def Obligations.CanvasAddressIsFourBitFields : Prop :=
  ∀ (n : BitVec 9) (r c : BitVec 3),
    pixelAddress n.toNat r.toNat c.toNat = ((n.toNat / 16) * 8 + r.toNat) * 128 + ((n.toNat % 16) * 8 + c.toNat) ∧
    pixelAddress n.toNat r.toNat c.toNat = (n.extractLsb' 4 5 ++ r ++ n.extractLsb' 0 4 ++ c : BitVec 15).toNat ∧
    (n.toNat % 16) * 8 + c.toNat ≤ 127 ∧ (n.toNat / 16) * 8 + r.toNat ≤ 255

/-- R130, R81: every canvas address belongs to exactly one pixel of exactly one tile. -/
def Obligations.EveryAddressIsOneTilePixel : Prop :=
  ∀ a, a < 32768 → ∃ n r c, n < 512 ∧ r < 8 ∧ c < 8 ∧ pixelAddress n r c = a ∧
    ∀ n' r' c', n' < 512 → r' < 8 → c' < 8 → pixelAddress n' r' c' = a → n' = n ∧ r' = r ∧ c' = c

/-- R124: a FETCH step stores one stream byte in `CHA[BC]` or `CHB[BC - 8]`, advances cursor and `BC`, and goes to EMIT
with the 16th byte. -/
def Obligations.FetchStepStoresOneByte : Prop :=
  ∀ (s : State) (v : Byte), s.st = .fetch → s.bc.toNat ≤ 15 → s.tn.toNat ≤ 511 → s.src[s.scur]? = some v →
    exec .fetchStep s = .next { s with
      scur := s.scur + 1
      cha := if s.bc.toNat < 8 then s.cha.setIfInBounds s.bc.toNat (some v) else s.cha
      chb := if s.bc.toNat < 8 then s.chb else s.chb.setIfInBounds (s.bc.toNat - 8) (some v)
      bc := BitVec.ofNat 5 (s.bc.toNat + 1)
      st := if s.bc.toNat = 15 then .emit else .fetch }

/-- R124, R183: a FETCH step at the end of the stream raises BANK_UNDERRUN: no partial image and no header result survive,
position, planes, palette, CERR and cursor stay. -/
def Obligations.FetchStepAtEndOfStreamFaults : Prop :=
  ∀ s : State, s.st = .fetch → s.bc.toNat ≤ 15 → s.tn.toNat ≤ 511 → s.src.length ≤ s.scur →
    exec .fetchStep s = .next { s with
      cause := .bankUnderrun, st := .fault, cvv := false, canvas := [], hdrv := false
      sig := #v[none, none, none, none], prg := none, chr := none }

/-- R125: an EMIT step places the decoded tile at `TN`, counts it, and after tile 511 sets CVV and goes to IDLE. -/
def Obligations.EmitStepPlacesAndCountsATile : Prop :=
  ∀ (A B : Plane) (s : State), s.st = .emit → s.bc = 16 → s.tn.toNat ≤ 511 →
    (∀ r : Fin 8, s.cha[r] = some A[r] ∧ s.chb[r] = some B[r]) → ∃ m : Memory,
    exec .emitStep s = .next { s with
      canvas := m, tn := BitVec.ofNat 10 (s.tn.toNat + 1), bc := 0
      cvv := if s.tn.toNat = 511 then true else s.cvv
      st := if s.tn.toNat = 511 then .idle else .fetch } ∧
    (∀ r c : Fin 8, m.read (pixelAddress s.tn.toNat r.val c.val) = some (s.pal[(pixidx A[r] B[r] c).toFin])) ∧
    ∀ a, (∀ r c : Fin 8, a ≠ pixelAddress s.tn.toNat r.val c.val) → m.read a = s.canvas.read a

/-- R127: a DECODE_BANK with 8192 bytes available takes 16 FETCH steps then one EMIT step, 512 times, and ends IDLE with a
valid image, every pixel the colour of R128, tile 511's record in the planes, and the rest of the state as it was. The agenda
is empty: no host turn falls among the steps (log 4; StepRunsTheSequencerOrTheHostsTurn says what one would do). -/
def Obligations.DecodeBankCompletes : Prop :=
  ∀ s : State, s.agenda = [] → s.st = .idle → s.cause = .none → s.scur + 8192 ≤ s.src.length → ∃ s1 t : State,
    exec .decodeBank s = .next s1 ∧ runSteps 8704 s1 = .next t ∧
    (∀ k j, k < 512 → j ≤ 16 → ∃ u, runSteps (17 * k + j) s1 = .next u ∧ u.tn.toNat = k ∧ u.bc.toNat = j ∧
      u.st = (if j = 16 then .emit else .fetch) ∧ u.scur = s.scur + 16 * k + j) ∧
    t.st = .idle ∧ t.cvv = true ∧ t.tn.toNat = 512 ∧ t.bc = 0 ∧ t.cause = .none ∧ t.scur = s.scur + 8192 ∧
    t.pal = s.pal ∧ t.hdrv = s.hdrv ∧ t.sig = s.sig ∧ t.prg = s.prg ∧ t.chr = s.chr ∧ t.cerr = s.cerr ∧
    t.src = s.src ∧ t.agenda = [] ∧ t.rdata = s.rdata ∧ t.wire = s.wire ∧ t.marked = s.marked ∧
    (∀ r : Fin 8, t.cha[r] = s.src[s.scur + 8176 + r.val]? ∧ t.chb[r] = s.src[s.scur + 8184 + r.val]?) ∧
    ∀ x y, x < 128 → y < 256 → t.canvas.read (y * 128 + x) = some (bankPixel (s.src.drop s.scur) s.pal x y)

/-- R128: the Bank Image in closed form, over the 8192 bytes at the cursor when DECODE_BANK starts.
The agenda is empty (log 4). -/
def Obligations.BankImageInClosedForm : Prop :=
  ∀ s : State, s.agenda = [] → s.st = .idle → s.scur + 8192 ≤ s.src.length → ∃ s1 t : State,
    exec .decodeBank s = .next s1 ∧ runSteps 8704 s1 = .next t ∧ t.cvv = true ∧
    ∀ x y, x < 128 → y < 256 → ∃ a b : Byte, ∃ idx : Fin 4,
      s.src[s.scur + (16 * ((y / 8) * 16 + x / 8) + y % 8)]? = some a ∧
      s.src[s.scur + (16 * ((y / 8) * 16 + x / 8) + 8 + y % 8)]? = some b ∧
      idx.val = (a.getLsbD (7 - x % 8)).toNat + 2 * (b.getLsbD (7 - x % 8)).toNat ∧
      t.canvas.read (y * 128 + x) = some s.pal[idx]

/-- R184, R185: with `m` bytes available, `m` from 0 to 8191, the bank fails whole, `TN = m div 16`, `BC = m mod 16`.
The agenda is empty (log 4). -/
def Obligations.AnyShortfallFailsTheWholeBank : Prop :=
  ∀ s : State, s.agenda = [] → s.st = .idle → s.src.length - s.scur < 8192 → ∃ s1 t : State,
    exec .decodeBank s = .next s1 ∧
    runSteps ((s.src.length - s.scur) + (s.src.length - s.scur) / 16 + 1) s1 = .next t ∧
    t.st = .fault ∧ t.cause = .bankUnderrun ∧ t.tn.toNat = (s.src.length - s.scur) / 16 ∧
    t.bc.toNat = (s.src.length - s.scur) % 16 ∧ t.cvv = false ∧ t.hdrv = false ∧ (∀ a, t.canvas.read a = none) ∧
    (s.scur ≤ s.src.length → t.scur = s.src.length) ∧ t.pal = s.pal ∧ t.cerr = s.cerr

/-- R131: the image depends only on the 8192 bytes and the palette, not on what the block held before.
The agenda is empty (log 4). -/
def Obligations.BankImageDependsOnBytesAndPaletteOnly : Prop :=
  ∀ s s' : State, s.agenda = [] → s'.agenda = [] → s.st = .idle → s'.st = .idle →
    s.scur + 8192 ≤ s.src.length → s'.scur + 8192 ≤ s'.src.length →
    (s.src.drop s.scur).take 8192 = (s'.src.drop s'.scur).take 8192 → s.pal = s'.pal → ∃ s1 s1' t t' : State,
    exec .decodeBank s = .next s1 ∧ exec .decodeBank s' = .next s1' ∧
    runSteps 8704 s1 = .next t ∧ runSteps 8704 s1' = .next t' ∧ t.cvv = true ∧ t'.cvv = true ∧ t.canvas = t'.canvas

/-- R132: the sequencer's steps, run until IDLE or FAULT, end where the whole-operation form of R123 ends.
The agenda is empty (log 4). -/
def Obligations.SmallStepsReachTheWholeDecode : Prop :=
  ∀ s : State, s.agenda = [] → s.st = .idle → ∃ s1 : State, exec .decodeBank s = .next s1 ∧
    ∃ k, k ≤ 8704 ∧ runSteps k s1 = .next s1.decodeBankWhole ∧
      (s1.decodeBankWhole.st = .idle ∨ s1.decodeBankWhole.st = .fault)

/-! ### Header validator -/

/-- R141: an HDR step stores one stream byte in `SIG[BC]`, `PRG` or `CHR`; the sixth sets HDRV and ends the read. -/
def Obligations.HdrStepStoresOneByte : Prop :=
  ∀ (s : State) (v : Byte), s.st = .hdr → s.bc.toNat ≤ 5 → s.src[s.scur]? = some v →
    exec .hdrStep s = .next { s with
      scur := s.scur + 1
      sig := if s.bc.toNat < 4 then s.sig.setIfInBounds s.bc.toNat (some v) else s.sig
      prg := if s.bc.toNat = 4 then some v else s.prg
      chr := if s.bc.toNat = 5 then some v else s.chr
      bc := if s.bc.toNat = 5 then 0 else BitVec.ofNat 5 (s.bc.toNat + 1)
      hdrv := if s.bc.toNat = 5 then true else s.hdrv
      st := if s.bc.toNat = 5 then .idle else .hdr }

/-- R141, R183: an HDR step at the end of the stream raises HDR_UNDERRUN, which also discards a valid image. -/
def Obligations.HdrStepAtEndOfStreamFaults : Prop :=
  ∀ s : State, s.st = .hdr → s.bc.toNat ≤ 5 → s.src.length ≤ s.scur →
    exec .hdrStep s = .next { s with
      cause := .hdrUnderrun, st := .fault, cvv := false, canvas := [], hdrv := false
      sig := #v[none, none, none, none], prg := none, chr := none }

/-- R140: READ_HEADER with 6 bytes available reads them in order, advances the cursor by 6 and touches nothing of the bank decode.
The agenda is empty (log 4). -/
def Obligations.ReadHeaderCompletes : Prop :=
  ∀ s : State, s.agenda = [] → s.st = .idle → ∀ h : s.scur + 6 ≤ s.src.length, ∃ s1 : State,
    exec .readHeader s = .next s1 ∧ runSteps 6 s1 = .next { s with
      sig := Vector.ofFn fun k : Fin 4 => some (s.src[s.scur + k.val]'(by omega))
      prg := some (s.src[s.scur + 4]'(by omega)), chr := some (s.src[s.scur + 5]'(by omega))
      hdrv := true, bc := 0, scur := s.scur + 6 } ∧ runSteps 6 s1 = .next s1.readHeaderWhole

/-- R182, R144: with `m` bytes available, `m` from 0 to 5, READ_HEADER faults, shows no partial result, and `BC = m`.
The agenda is empty (log 4). -/
def Obligations.ShortHeaderFaults : Prop :=
  ∀ s : State, s.agenda = [] → s.st = .idle → s.src.length - s.scur < 6 → ∃ s1 t : State,
    exec .readHeader s = .next s1 ∧ runSteps ((s.src.length - s.scur) + 1) s1 = .next t ∧
    t = s1.readHeaderWhole ∧
    t.st = .fault ∧ t.cause = .hdrUnderrun ∧ t.bc.toNat = s.src.length - s.scur ∧ t.hdrv = false ∧
    (∀ k : Fin 4, t.sig[k] = none) ∧ t.prg = none ∧ t.chr = none ∧ t.sigok = none ∧
    t.cvv = false ∧ (∀ a, t.canvas.read a = none) ∧ t.tn = s.tn ∧ t.pal = s.pal ∧ t.cha = s.cha ∧ t.chb = s.chb ∧
    t.cerr = s.cerr

/-- An HDR record taken where a header read starts: its fields, HDRV, and the cursor advanced by 6, as R140 (log 15).
The six steps that end in the same state run with an empty agenda (log 4). -/
def Obligations.HdrRecordFillsTheResult : Prop :=
  ∀ (v : Vector Byte 4) (p c : Byte) (s : State), s.st = .hdr → s.bc = 0 →
    exec (.hdr v p c) s = .next { s with
      sig := Vector.ofFn fun k : Fin 4 => some v[k], prg := some p, chr := some c
      scur := s.scur + 6, hdrv := true, bc := 0, st := .idle } ∧
    (s.agenda = [] → (∀ k : Fin 4, s.src[s.scur + k.val]? = some v[k]) → s.src[s.scur + 4]? = some p →
      s.src[s.scur + 5]? = some c → runSteps 6 s = exec (.hdr v p c) s)

/-- R142: true for the four bytes 4E 45 53 1A in this order and false for every other operand of any length; SIGOK is that
function of SIG while HDRV = 1. -/
def Obligations.SignatureIsTheConstantAndNothingElse : Prop :=
  (∀ (bytes : List Byte) (s : State), ∃ b : BitVec 1,
    exec (.isValidSignature bytes) s = .next { s with wire := some (.bits1 b) } ∧
    (b = 1 ↔ bytes = [0x4E, 0x45, 0x53, 0x1A])) ∧
  ∀ (v : Vector Byte 4) (s : State), s.hdrv = true → (∀ k : Fin 4, s.sig[k] = some v[k]) → ∃ ok : Bool,
    s.sigok = some ok ∧
    (ok = true ↔ v[0] = 0x4E ∧ v[1] = 0x45 ∧ v[2] = 0x53 ∧ v[3] = 0x1A)

/-- R143: a wrong signature ends in IDLE with HDRV = 1, SIGOK = 0, no fault, and the counts that were read.
The agenda is empty (log 4). -/
def Obligations.WrongSignatureIsNoFault : Prop :=
  ∀ s : State, s.agenda = [] → s.st = .idle → s.cause = .none → s.scur + 6 ≤ s.src.length →
    (s.src.drop s.scur).take 4 ≠ [0x4E, 0x45, 0x53, 0x1A] → ∃ s1 t : State,
    exec .readHeader s = .next s1 ∧ runSteps 6 s1 = .next t ∧
    t.st = .idle ∧ t.hdrv = true ∧ t.sigok = some false ∧ t.cause = .none ∧
    t.prg = s.src[s.scur + 4]? ∧ t.chr = s.src[s.scur + 5]?

/-! ### Host commands and register access -/

/-- R155: what a write of byte `w` to CMD does, in the order the rule gives, on the state without that turn. -/
def Obligations.CommandWriteFollowsItsOrder : Prop :=
  ∀ (s : State) (w : Byte) (colour : Color) (rest : List Turn), s.agenda = .access (.write 0x00 w colour) :: rest →
    step s = .next
      (let s1 := { s with agenda := rest }
       if w = 0x00 then s1
       else if s.st ≠ .idle then { s1 with cerr := true }
       else if w = 0x01 then { s1 with hdrv := false, sig := #v[none, none, none, none], prg := none, chr := none, bc := 0, st := .hdr }
       else if w = 0x02 then { s1 with cvv := false, canvas := [], tn := 0, bc := 0, st := .fetch }
       else { s1 with cerr := true })

/-- R157: READ_HEADER while IDLE starts a header read; in any other state it sets CERR and nothing else. -/
def Obligations.ReadHeaderStartsOrIsRefused : Prop :=
  ∀ s : State,
    (s.st = .idle → exec .readHeader s = .next { s with
      hdrv := false, sig := #v[none, none, none, none], prg := none, chr := none, bc := 0, st := .hdr }) ∧
    (s.st ≠ .idle → exec .readHeader s = .next { s with cerr := true })

/-- R158: DECODE_BANK while IDLE empties the canvas and starts at tile 0; in any other state it sets CERR and nothing else. -/
def Obligations.DecodeBankStartsOrIsRefused : Prop :=
  ∀ s : State,
    (s.st = .idle → ∃ t : State, exec .decodeBank s = .next t ∧ (∀ a, t.canvas.read a = none) ∧
      t = { s with cvv := false, canvas := t.canvas, tn := 0, bc := 0, st := .fetch }) ∧
    (s.st ≠ .idle → exec .decodeBank s = .next { s with cerr := true })

/-- R156, R159, R160: in every state NOP changes nothing, and each reserved command sets CERR and nothing else. -/
def Obligations.NopChangesNothingAndReservedCommandsOnlySetCerr : Prop :=
  ∀ s : State, exec .nop s = .next s ∧ exec .reserved03 s = .next { s with cerr := true } ∧
    (∀ x, exec (.reserved04to07 x) s = .next { s with cerr := true }) ∧
    (∀ x, exec (.reserved08to0F x) s = .next { s with cerr := true }) ∧
    (∀ x, exec (.reserved10to1F x) s = .next { s with cerr := true }) ∧
    (∀ x, exec (.reserved20to3F x) s = .next { s with cerr := true }) ∧
    (∀ x, exec (.reserved40to7F x) s = .next { s with cerr := true }) ∧
    (∀ x, exec (.reserved80toFF x) s = .next { s with cerr := true })

/-- R161: LDPAL while IDLE writes `PAL[i]` and nothing else; in any other state it sets CERR and nothing else. -/
def Obligations.LdpalWritesOneEntryWhileIdle : Prop :=
  ∀ (i : BitVec 2) (v : Color) (s : State),
    (s.st = .idle → ∃ P : Palette, exec (.ldpal i v) s = .next { s with pal := P } ∧
      ∀ k : Fin 4, P[k] = if k = i.toFin then v else s.pal[k]) ∧
    (s.st ≠ .idle → exec (.ldpal i v) s = .next { s with cerr := true })

/-- R162, R27: STATUS, TN, BC and PALi give a value in every state and change no block state; STATUS is
`CAUSE*64 + CERR*32 + CVV*16 + HDRV*8 + ST`. -/
def Obligations.StatusAndProgressReadInAnyState : Prop :=
  ∀ s : State,
    (∃ v : BitVec 8, exec .rdStatus s = .next { s with rdata := some (.bits8 v) } ∧
      v.toNat = s.cause.code.toNat * 64 + s.cerr.toNat * 32 + s.cvv.toNat * 16 + s.hdrv.toNat * 8 + s.st.code.toNat) ∧
    exec .rdTn s = .next { s with rdata := some (.bits10 s.tn) } ∧
    exec .rdBc s = .next { s with rdata := some (.bits5 s.bc) } ∧
    ∀ i : BitVec 2, exec (.rdPal i) s = .next { s with rdata := some (.colour s.pal[i.toFin]) }

/-- R162, R21: while HDRV = 1 and the header registers hold their values, SIGi, PRG, CHR and SIGOK read them. -/
def Obligations.HeaderReadsWhileHdrv : Prop :=
  ∀ (v : Vector Byte 4) (p c : Byte) (s : State), s.hdrv = true → (∀ k : Fin 4, s.sig[k] = some v[k]) →
    s.prg = some p → s.chr = some c →
    (∀ i : BitVec 2, exec (.rdSig i) s = .next { s with rdata := some (.bits8 v[i.toFin]) }) ∧
    exec .rdPrg s = .next { s with rdata := some (.bits8 p) } ∧
    exec .rdChr s = .next { s with rdata := some (.bits8 c) } ∧
    exec .rdSigok s = .next { s with rdata := some (.bits1 (if v = #v[0x4E, 0x45, 0x53, 0x1A] then 1 else 0)) }

/-- R164: while CVV = 1 RDPIX gives the colour of the pixel and changes no block state. -/
def Obligations.RdpixGivesTheColourWhileCvv : Prop :=
  ∀ (a : BitVec 15) (v : Color) (s : State), s.cvv = true → s.canvas.read a.toNat = some v →
    exec (.rdpix a) s = .next { s with rdata := some (.colour v) }

/-- R165, R27: a read of a header register while HDRV = 0, of a pixel while CVV = 0 or of a reserved register number gives no
value, sets no flag and changes no block state; that the run goes on with its mark set is the model's reading (log 5), and so
is that a read of the write-only CMD is such a read (log 6). -/
def Obligations.ReadsWithNoValueOnlyMarkTheRun : Prop :=
  ∀ s : State,
    (s.hdrv = false → (∀ i, exec (.rdSig i) s = .next { s with rdata := none, marked := true }) ∧
      exec .rdPrg s = .next { s with rdata := none, marked := true } ∧
      exec .rdChr s = .next { s with rdata := none, marked := true } ∧
      exec .rdSigok s = .next { s with rdata := none, marked := true }) ∧
    (s.cvv = false → ∀ a, exec (.rdpix a) s = .next { s with rdata := none, marked := true }) ∧
    ∀ (number : Byte) (rest : List Turn), s.agenda = .access (.read number) :: rest →
      number.toNat = 0 ∨ 15 ≤ number.toNat →
      step s = .next { s with agenda := rest, rdata := none, marked := true }

/-- R166: a host write to any register but CMD and PAL0 to PAL3 sets CERR and nothing else (the turn is taken off the agenda). -/
def Obligations.WritesToOtherRegistersAreRefused : Prop :=
  ∀ (s : State) (number byte : Byte) (colour : Color) (rest : List Turn),
    s.agenda = .access (.write number byte colour) :: rest → number.toNat ≠ 0 → ¬ (4 ≤ number.toNat ∧ number.toNat ≤ 7) →
    step s = .next { s with agenda := rest, cerr := true }

/-! ### Faults and reset -/

/-- R186: FAULT is left only by reset; until then cause, position, palette, canvas, CVV, HDRV and cursor stay. CERR is not among
them: a refused action raises it in FAULT too. -/
def Obligations.FaultIsLeftOnlyByReset : Prop :=
  ∀ s t : State, s.st = .fault → step s = .next t →
    (t.st = .fault ∧ t.cause = s.cause ∧ t.tn = s.tn ∧ t.bc = s.bc ∧ t.pal = s.pal ∧ t.canvas = s.canvas ∧
      t.cvv = s.cvv ∧ t.hdrv = s.hdrv ∧ t.scur = s.scur) ∨
    (∃ rest, s.agenda = .reset :: rest ∧ t.st = .idle ∧ t.cause = .none)

/-- R200: reset, in every state, gives every piece of block state its reset value and leaves the stream and its
cursor. That it also leaves `rdata` and `wire` (log 9), `marked` (log 5) and the agenda (log 4) is the model's choice. -/
def Obligations.ResetRestoresEveryRegister : Prop :=
  ∀ s : State, ∃ t : State, exec .reset s = .next t ∧
    t = { s with
      st := .idle, tn := 0, bc := 0, cha := #v[none, none, none, none, none, none, none, none]
      chb := #v[none, none, none, none, none, none, none, none], pal := t.pal, canvas := t.canvas, cvv := false
      hdrv := false, cerr := false, cause := .none, sig := #v[none, none, none, none], prg := none, chr := none } ∧
    (∀ i : Fin 4, t.pal[i] = Config.defaultColour i) ∧ (∀ a, t.canvas.read a = none) ∧ t.status = 0x00

/-- R31: the block state a run starts in. -/
def Obligations.RunStartsInTheResetState : Prop :=
  State.reset.st = .idle ∧ State.reset.tn = 0 ∧ State.reset.bc = 0 ∧
  (∀ r : Fin 8, State.reset.cha[r] = none ∧ State.reset.chb[r] = none) ∧
  (∀ i : Fin 4, State.reset.pal[i] = Config.defaultColour i) ∧ (∀ a, State.reset.canvas.read a = none) ∧
  State.reset.cvv = false ∧ (∀ k : Fin 4, State.reset.sig[k] = none) ∧ State.reset.prg = none ∧
  State.reset.chr = none ∧ State.reset.hdrv = false ∧ State.reset.cerr = false ∧ State.reset.cause = .none ∧
  State.reset.status = 0x00

/-! ### Invariants and rules about the whole machine -/

/-- 10_state.md R32: the invariants hold where a run starts. -/
def Obligations.ResetMeetsTheInvariants : Prop := State.reset.Inv

/-- 10_state.md R32: every step of block and host keeps the invariants, from every state that meets them. -/
def Obligations.EveryStepKeepsTheInvariants : Prop :=
  ∀ s t : State, s.Inv → step s = .next t → t.Inv

/-- R43: no step writes the stream. -/
def Obligations.NoStepWritesTheStream : Prop :=
  ∀ s t : State, step s = .next t → t.src = s.src

/-- R42: the block's own step moves the cursor by at most one, forward, and only over a byte of the stream; an operation
without a block step moves it not at all. -/
def Obligations.CursorMovesForwardByteByByte : Prop :=
  ∀ s t : State, s.agenda = [] → step s = .next t →
    t.scur = s.scur ∨ (t.scur = s.scur + 1 ∧ s.scur < s.src.length ∧ (s.st = .hdr ∨ s.st = .fetch))

/-- R206: while an operation runs the palette does not change, but for reset. -/
def Obligations.PaletteIsStableWhileBusy : Prop :=
  ∀ s t : State, s.st ≠ .idle → (∀ rest, s.agenda ≠ .reset :: rest) → step s = .next t → t.pal = s.pal

/-- R24: CERR is sticky: only reset clears it. -/
def Obligations.CerrIsSticky : Prop :=
  ∀ s t : State, s.cerr = true → (∀ rest, s.agenda ≠ .reset :: rest) → step s = .next t → t.cerr = true

/-- R19, R205: while CVV stays 1 no step writes the canvas; the premise is item 3 of R32. -/
def Obligations.ValidImageIsNotWritten : Prop :=
  ∀ s t : State, (s.st = .emit → s.cvv = false) → s.cvv = true → step s = .next t → t.cvv = true → t.canvas = s.canvas

/-- R26: CVV rises only with the EMIT step of tile 511, and HDRV only when a header read ends. -/
def Obligations.ValidFlagsRiseOnlyAtCompletion : Prop :=
  ∀ s t : State, step s = .next t →
    (s.cvv = false → t.cvv = true → s.st = .emit ∧ s.tn.toNat = 511 ∧ t.st = .idle) ∧
    (s.hdrv = false → t.hdrv = true → s.st = .hdr ∧ t.st = .idle)

/-- R23: no step of a bank decode reads the header state: with other header registers it does the same to everything else.
The agenda is empty (log 4). -/
def Obligations.BankDecodeIgnoresTheHeader : Prop :=
  ∀ (s t : State) (v : Vector (Option Byte) 4) (p c : Option Byte) (h : Bool), s.agenda = [] →
    s.st = .fetch ∨ s.st = .emit → step s = .next t → ∃ t' : State,
    step { s with sig := v, prg := p, chr := c, hdrv := h } = .next t' ∧
    t = { t' with sig := t.sig, prg := t.prg, chr := t.chr, hdrv := t.hdrv }

/-- R13: in a bank decode the position `16*TN + BC` and the cursor advance together, by one per byte read, and neither
moves in an EMIT step or at the fault. The agenda is empty (log 4). -/
def Obligations.PositionAdvancesWithTheCursor : Prop :=
  ∀ s t : State, s.agenda = [] → s.st = .fetch ∨ s.st = .emit → step s = .next t →
    (s.st = .fetch → s.scur < s.src.length → t.position = s.position + 1 ∧ t.scur = s.scur + 1) ∧
    (s.st = .fetch → s.src.length ≤ s.scur → t.position = s.position ∧ t.scur = s.scur) ∧
    (s.st = .emit → t.position = s.position ∧ t.scur = s.scur)

/-- 43 R155: when the host's next access decodes to an operation, the step is `exec` of it on the state without that turn. -/
def Obligations.StepRunsTheDecodedAccess : Prop :=
  ∀ (s : State) (a : Access) (rest : List Turn) (i : Instr), s.agenda = .access a :: rest →
    decode (.access a) = .ok i → step s = exec i { s with agenda := rest }

/-- 41 R124, R125, 42 R141, 60 R186, 30 R85, 43 R160, R187: with an empty agenda the step is the sequencer's, `exec` of the step
its state enables, and nothing in IDLE and FAULT (log 17). The turns (log 4): RESET at any time, SEEK while IDLE, WAIT until the
block has stopped, one step of the block, the comparison of SIG with the signature, which has no result without values to
compare (log 23). A host access while the block is not IDLE changes CERR, what was read and the mark, and nothing else. -/
def Obligations.StepRunsTheSequencerOrTheHostsTurn : Prop :=
  ∀ s : State,
    (s.agenda = [] →
      (s.st = .hdr → step s = exec .hdrStep s) ∧ (s.st = .fetch → step s = exec .fetchStep s) ∧
      (s.st = .emit → step s = exec .emitStep s) ∧ (s.st = .idle ∨ s.st = .fault → step s = .next s)) ∧
    ∀ rest : List Turn,
    (s.agenda = .reset :: rest → step s = exec .reset { s with agenda := rest }) ∧
    (∀ offset, s.agenda = .seek offset :: rest → s.st = .idle → step s = .next { s with agenda := rest, scur := offset }) ∧
    (∀ offset, s.agenda = .seek offset :: rest → s.st ≠ .idle → step s = .refused .seekWhileBusy) ∧
    (s.agenda = .wait :: rest → s.st = .hdr → step s = exec .hdrStep s) ∧
    (s.agenda = .wait :: rest → s.st = .fetch → step s = exec .fetchStep s) ∧
    (s.agenda = .wait :: rest → s.st = .emit → step s = exec .emitStep s) ∧
    (s.agenda = .wait :: rest → s.st = .idle ∨ s.st = .fault → step s = .next { s with agenda := rest }) ∧
    (s.agenda = .block :: rest →
      (s.st = .hdr → step s = exec .hdrStep { s with agenda := rest }) ∧
      (s.st = .fetch → step s = exec .fetchStep { s with agenda := rest }) ∧
      (s.st = .emit → step s = exec .emitStep { s with agenda := rest }) ∧
      (s.st = .idle ∨ s.st = .fault → step s = .next { s with agenda := rest })) ∧
    (s.agenda = .compare :: rest →
      (∀ v : Vector Byte 4, s.hdrv = true → (∀ k : Fin 4, s.sig[k] = some v[k]) →
        step s = exec (.isValidSignature [v[0], v[1], v[2], v[3]]) { s with agenda := rest }) ∧
      (s.hdrv = false ∨ (∃ k : Fin 4, s.sig[k] = none) → step s = .next { s with agenda := rest, wire := none })) ∧
    ∀ (a : Access) (t : State), s.agenda = .access a :: rest → s.st ≠ .idle → step s = .next t →
      t = { s with agenda := rest, cerr := t.cerr, rdata := t.rdata, marked := t.marked }

/-- 41 R132, 30 R71, R74: a record turn where a tile fetch or a header read starts runs the record at the cursor, and TFETCH or
the HDR step where the stream is too short for one; anywhere else it is the block's own step (log 15). -/
def Obligations.RecordTurnRunsTheRecordAtTheCursor : Prop :=
  ∀ (s : State) (rest : List Turn), s.agenda = .record :: rest →
    (∀ A B : Plane, s.st = .fetch → s.bc = 0 →
      (∀ r : Fin 8, s.src[s.scur + r.val]? = some A[r] ∧ s.src[s.scur + 8 + r.val]? = some B[r]) →
      step s = exec (.tile A B) { s with agenda := rest }) ∧
    (s.st = .fetch → s.bc = 0 → s.src.length < s.scur + 16 → step s = exec .tfetch { s with agenda := rest }) ∧
    (∀ (v : Vector Byte 4) (p c : Byte), s.st = .hdr → s.bc = 0 →
      (∀ k : Fin 4, s.src[s.scur + k.val]? = some v[k]) →
      s.src[s.scur + 4]? = some p → s.src[s.scur + 5]? = some c →
      step s = exec (.hdr v p c) { s with agenda := rest }) ∧
    (s.st = .hdr → s.bc = 0 → s.src.length < s.scur + 6 → step s = exec .hdrStep { s with agenda := rest }) ∧
    (s.st = .fetch → s.bc ≠ 0 → step s = exec .fetchStep { s with agenda := rest }) ∧
    (s.st = .hdr → s.bc ≠ 0 → step s = exec .hdrStep { s with agenda := rest }) ∧
    (s.st = .emit → step s = exec .emitStep { s with agenda := rest }) ∧
    (s.st = .idle ∨ s.st = .fault → step s = .next { s with agenda := rest })

/-- Every stop of the model, its place and its name, and that there is no other. A read of a canvas address above 32767 (43
R164, log 14); a seek while not IDLE (70 R207, log 13); a record of a wrong length, which `step` never hands over (30 R70); a
step or a micro-operation outside the states its rule is written for (41 R124, R125, 42 R141, 20 R48, log 10); planes that hold
no value (10 R10, log 11). Then: `exec` answers a next state everywhere else, and so does `step`, which asks for a disabled
sequencer step only in states that the invariants of 10 R32 rule out. -/
def Obligations.EveryStopHasItsPlaceAndItsName : Prop :=
  (∀ (s : State) (rest : List Turn),
    (∀ a, s.agenda = .access (.readPixel a) :: rest → 32768 ≤ a → step s = .fault (.noSuchPixel a)) ∧
    ∀ offset, s.agenda = .seek offset :: rest → s.st ≠ .idle → step s = .refused .seekWhileBusy) ∧
  (∀ (e : Encoded) (n : Nat) (s : State), decode e = .error (.recordLength n) → runEncoded e s = .refused (.badRecord n)) ∧
  (∀ (s : State) (n : Nat), step s ≠ .refused (.badRecord n)) ∧
  (∀ s : State,
    (¬ (s.st = .fetch ∧ s.bc.toNat ≤ 15 ∧ s.tn.toNat ≤ 511) → exec .fetchStep s = .refused (.notEnabled "FETCH_STEP")) ∧
    (¬ (s.st = .emit ∧ s.bc = 16 ∧ s.tn.toNat ≤ 511) → exec .emitStep s = .refused (.notEnabled "EMIT_STEP")) ∧
    (¬ (s.st = .hdr ∧ s.bc.toNat ≤ 5) → exec .hdrStep s = .refused (.notEnabled "HDR_STEP")) ∧
    (¬ (s.st = .fetch ∧ s.bc = 0 ∧ s.tn.toNat ≤ 511) →
      exec .tfetch s = .refused (.notEnabled "TFETCH") ∧ ∀ A B, exec (.tile A B) s = .refused (.notEnabled "TILE")) ∧
    (¬ (s.st = .hdr ∧ s.bc = 0) → ∀ v p c, exec (.hdr v p c) s = .refused (.notEnabled "HDR")) ∧
    (∀ n t, ¬ (s.st = .emit ∧ n.toNat ≤ 511) → exec (.tplace n t) s = .refused (.notEnabled "TPLACE")) ∧
    ((∃ r : Fin 8, s.cha[r] = none ∨ s.chb[r] = none) →
      exec .tdecode s = .refused (.noValue "TDECODE") ∧
      (s.st = .emit → s.bc = 16 → s.tn.toNat ≤ 511 → exec .emitStep s = .refused (.noValue "EMIT_STEP")))) ∧
  (∀ (i : Instr) (s : State), (∃ t, exec i s = .next t) ∨
    (i = .fetchStep ∧ ¬ (s.st = .fetch ∧ s.bc.toNat ≤ 15 ∧ s.tn.toNat ≤ 511)) ∨
    (i = .emitStep ∧ ¬ (s.st = .emit ∧ s.bc = 16 ∧ s.tn.toNat ≤ 511)) ∨
    (i = .hdrStep ∧ ¬ (s.st = .hdr ∧ s.bc.toNat ≤ 5)) ∨
    ((i = .tfetch ∨ ∃ A B, i = .tile A B) ∧ ¬ (s.st = .fetch ∧ s.bc = 0 ∧ s.tn.toNat ≤ 511)) ∨
    ((∃ v p c, i = .hdr v p c) ∧ ¬ (s.st = .hdr ∧ s.bc = 0)) ∨
    (∃ n t, i = .tplace n t ∧ ¬ (s.st = .emit ∧ n.toNat ≤ 511)) ∨
    ((i = .tdecode ∨ i = .emitStep) ∧ ∃ r : Fin 8, s.cha[r] = none ∨ s.chb[r] = none)) ∧
  ∀ s : State, (∃ t, step s = .next t) ∨
    (∃ a rest, s.agenda = .access (.readPixel a) :: rest ∧ 32768 ≤ a) ∨
    (∃ offset rest, s.agenda = .seek offset :: rest ∧ s.st ≠ .idle) ∨
    (s.st = .fetch ∧ ¬ (s.bc.toNat ≤ 15 ∧ s.tn.toNat ≤ 511)) ∨
    (s.st = .hdr ∧ 5 < s.bc.toNat) ∨
    (s.st = .emit ∧ (¬ (s.bc = 16 ∧ s.tn.toNat ≤ 511) ∨ ∃ r : Fin 8, s.cha[r] = none ∨ s.chb[r] = none))
end

