-- ==== Sys2Proof/Laws/Decode.lean ====
section
/-!
SUPPORT. One lemma per encoding: what its word decodes to.
-/
namespace Sys2Proof

theorem decodeCmd_reserved04to07 : ∀ x : BitVec 2, decodeCmd (1#6 ++ x) = .reserved04to07 x := by decide

theorem decodeCmd_reserved08to0F : ∀ x : BitVec 3, decodeCmd (1#5 ++ x) = .reserved08to0F x := by decide

theorem decodeCmd_reserved10to1F : ∀ x : BitVec 4, decodeCmd (1#4 ++ x) = .reserved10to1F x := by decide

theorem decodeCmd_reserved20to3F : ∀ x : BitVec 5, decodeCmd (1#3 ++ x) = .reserved20to3F x := by decide

theorem decodeCmd_reserved40to7F : ∀ x : BitVec 6, decodeCmd (1#2 ++ x) = .reserved40to7F x := by decide

theorem decodeCmd_reserved80toFF : ∀ x : BitVec 7, decodeCmd (1#1 ++ x) = .reserved80toFF x := by decide

/-- A vector is the bytes it was written out as, whatever follows them. -/
theorem bytesVector_toList_append {n : Nat} (v : Vector Byte n) (rest : List Byte) :
    bytesVector n (v.toList ++ rest) = v := by
  apply Vector.ext
  intro i hi
  simp [bytesVector, List.getD_eq_getElem?_getD, List.getElem?_append_left]

end Sys2Proof
end

