-- ==== Sys2Proof/Laws/Memory.lean ====
section
/-!
SUPPORT. The canvas: read after write, the one form kept by every write, and what placing a tile does.
-/
namespace Sys2Proof.Machine

open Sys2Proof

@[simp] theorem Memory.read_nil (a : Nat) : Memory.read [] a = none := rfl

/-- A write is seen at its address and nowhere else. -/
theorem Memory.read_write (m : Memory) (a b : Nat) (v : Color) :
    (m.write a v).read b = if b = a then some v else m.read b := by
  induction m with
  | nil => simp [Memory.write, Memory.read]
  | cons p rest ih =>
    obtain ⟨k, old⟩ := p
    simp only [Memory.write]
    split
    · simp [Memory.read]
    · split
      · subst_vars; simp only [Memory.read]; split <;> rfl
      · simp only [Memory.read, ih]; split <;> split <;> first | rfl | omega

theorem Memory.read_write_same (m : Memory) (a : Nat) (v : Color) : (m.write a v).read a = some v := by
  simp [Memory.read_write]

theorem Memory.read_write_other (m : Memory) {a b : Nat} (v : Color) (h : b ≠ a) : (m.write a v).read b = m.read b := by
  simp [Memory.read_write, h]

/-- The addresses after a write are the old ones and the written one. -/
theorem Memory.mem_write {m : Memory} {a : Nat} {v : Color} {p : Nat × Color} (h : p ∈ m.write a v) :
    p = (a, v) ∨ p ∈ m := by
  induction m with
  | nil => simpa [Memory.write] using h
  | cons q rest ih =>
    obtain ⟨k, old⟩ := q
    simp only [Memory.write] at h
    split at h
    · simpa using h
    · split at h
      · simp at h ⊢; tauto
      · simp at h ⊢
        rcases h with h | h
        · tauto
        · have := ih h; tauto

theorem Memory.wf_nil : Memory.wf [] := by decide

/-- A write inside the canvas keeps the one form. -/
theorem Memory.wf_write {m : Memory} {a : Nat} (v : Color) (h : Memory.wf m) (ha : a < 32768) : Memory.wf (m.write a v) := by
  refine ⟨?_, fun p hp => ?_⟩
  · replace h := h.1
    induction m with
    | nil => simp [Memory.write]
    | cons q rest ih =>
      obtain ⟨k, old⟩ := q
      simp only [List.pairwise_cons] at h
      simp only [Memory.write]
      split
      · refine List.pairwise_cons.2 ⟨fun p hp => ?_, List.pairwise_cons.2 h⟩
        rcases List.mem_cons.1 hp with rfl | hp
        · assumption
        · have := h.1 p hp; simp only at *; omega
      · split
        · subst_vars; exact List.pairwise_cons.2 ⟨h.1, h.2⟩
        · refine List.pairwise_cons.2 ⟨fun p hp => ?_, ih h.2⟩
          rcases Memory.mem_write hp with rfl | hp
          · simp only at *; omega
          · exact h.1 p hp
  · rcases Memory.mem_write hp with rfl | hp
    · exact ha
    · exact h.2 p hp

/-- An address below every listed one holds no value. -/
theorem Memory.read_eq_none {m : Memory} {a : Nat} (h : ∀ p ∈ m, p.1 ≠ a) : m.read a = none := by
  induction m with
  | nil => rfl
  | cons q rest ih =>
    obtain ⟨k, old⟩ := q
    have hk := h (k, old) (by simp)
    simp only [Memory.read]
    rw [if_neg (fun e => hk e.symm)]
    exact ih fun p hp => h p (by simp [hp])

/-- No pixel outside the canvas holds a value. -/
theorem Memory.read_past {m : Memory} {a : Nat} (h : Memory.wf m) (ha : 32768 ≤ a) : m.read a = none :=
  Memory.read_eq_none fun p hp => by have := h.2 p hp; omega

/-- Canvases of the one form that read alike are the same list. -/
theorem Memory.ext_of_read {m n : Memory} (hm : Memory.wf m) (hn : Memory.wf n) (h : ∀ a, m.read a = n.read a) : m = n := by
  replace hm := hm.1
  replace hn := hn.1
  induction m generalizing n with
  | nil =>
    cases n with
    | nil => rfl
    | cons q rest => have := h q.1; simp [Memory.read] at this
  | cons p rest ih =>
    obtain ⟨k, v⟩ := p
    cases n with
    | nil => have := h k; simp [Memory.read] at this
    | cons q rest' =>
      obtain ⟨l, w⟩ := q
      rw [List.pairwise_cons] at hm hn
      have below : ∀ {x y : Nat} {r : Memory}, (∀ p ∈ r, x < p.1) → y ≤ x → Memory.read r y = none :=
        fun hr hy => Memory.read_eq_none fun p hp => by have := hr p hp; omega
      have hk := h k
      have hl := h l
      simp only [Memory.read, if_true] at hk hl
      have hkl : k = l := by
        rcases Nat.lt_trichotomy k l with c | c | c
        · rw [if_neg (by omega), below hn.1 (by omega)] at hk; cases hk
        · exact c
        · rw [if_neg (by omega), below hm.1 (by omega)] at hl; cases hl
      subst hkl
      simp only [if_true, Option.some.injEq] at hk
      subst hk
      congr 1
      refine ih (fun a => ?_) hm.2 hn.2
      have ha := h a
      simp only [Memory.read] at ha
      split at ha
      · subst_vars; rw [below hm.1 (Nat.le_refl _), below hn.1 (Nat.le_refl _)]
      · exact ha

/-- A run of writes at addresses `f c` leaves every other address alone. -/
theorem Memory.read_foldl_write_other {ι : Type} (l : List ι) (f : ι → Nat) (g : ι → Color) (m : Memory) (a : Nat)
    (h : ∀ i ∈ l, a ≠ f i) : (l.foldl (fun m i => m.write (f i) (g i)) m).read a = m.read a := by
  induction l generalizing m with
  | nil => rfl
  | cons i l ih =>
    rw [List.foldl_cons, ih _ fun j hj => h j (by simp [hj]), Memory.read_write_other _ _ (h i (by simp))]

/-- A run of writes at distinct addresses leaves each value written. -/
theorem Memory.read_foldl_write_same {ι : Type} (l : List ι) (f : ι → Nat) (g : ι → Color) (m : Memory) (i : ι)
    (hi : i ∈ l) (h : ∀ j ∈ l, f j = f i → j = i) :
    (l.foldl (fun m i => m.write (f i) (g i)) m).read (f i) = some (g i) := by
  induction l generalizing m with
  | nil => cases hi
  | cons j l ih =>
    rw [List.foldl_cons]
    by_cases hl : i ∈ l
    · exact ih _ hl fun k hk => h k (by simp [hk])
    · rw [Memory.read_foldl_write_other]
      · rcases List.mem_cons.1 hi with rfl | hi
        · exact Memory.read_write_same _ _ _
        · exact absurd hi hl
      · intro k hk e
        have := h k (by simp [hk]) e.symm
        exact hl (this ▸ hk)

theorem Memory.wf_foldl_write {ι : Type} (l : List ι) (f : ι → Nat) (g : ι → Color) (m : Memory) (hm : Memory.wf m)
    (h : ∀ i ∈ l, f i < 32768) : Memory.wf (l.foldl (fun m i => m.write (f i) (g i)) m) := by
  induction l generalizing m with
  | nil => exact hm
  | cons i l ih =>
    exact ih _ (Memory.wf_write _ hm (h i (by simp))) fun j hj => h j (by simp [hj])

/-! ### Placing a tile -/

theorem pixelAddress_lt {n r c : Nat} (hn : n < 512) (hr : r < 8) (hc : c < 8) : pixelAddress n r c < 32768 := by
  simp only [pixelAddress, tileX, tileY]; omega

/-- Tile, row and column can be read back from the address (30 R81). -/
theorem pixelAddress_fields {n r c : Nat} (hr : r < 8) (hc : c < 8) :
    tileOfAddress (pixelAddress n r c) = n ∧ pixelAddress n r c / 128 % 8 = r ∧ pixelAddress n r c % 8 = c := by
  simp only [pixelAddress, tileX, tileY, tileOfAddress]; omega

theorem pixelAddress_tileOfAddress (a : Nat) : pixelAddress (tileOfAddress a) (a / 128 % 8) (a % 8) = a := by
  simp only [pixelAddress, tileX, tileY, tileOfAddress]; omega

theorem tileOfAddress_lt {a : Nat} (h : a < 32768) : tileOfAddress a < 512 := by simp only [tileOfAddress]; omega

theorem placeRow_read_same (n r : Nat) (row : Vector Color 8) (m : Memory) (c : Fin 8) :
    (placeRow n r row m).read (pixelAddress n r c.val) = some row[c] := by
  refine Memory.read_foldl_write_same _ (fun c : Fin 8 => pixelAddress n r c.val) (fun c => row[c]) m c (by simp) ?_
  intro j _ e
  simp only [pixelAddress, tileX, tileY] at e
  exact Fin.ext (by omega)

theorem placeRow_read_other (n r : Nat) (row : Vector Color 8) (m : Memory) (a : Nat)
    (h : ∀ c : Fin 8, a ≠ pixelAddress n r c.val) : (placeRow n r row m).read a = m.read a :=
  Memory.read_foldl_write_other _ _ _ _ _ fun c _ => h c

theorem placeRow_wf {n r : Nat} (row : Vector Color 8) {m : Memory} (hm : Memory.wf m) (hn : n < 512) (hr : r < 8) :
    Memory.wf (placeRow n r row m) :=
  Memory.wf_foldl_write _ _ _ _ hm fun c _ => pixelAddress_lt hn hr c.isLt

theorem placeRows_read_other (n : Nat) (t : Tile) (l : List (Fin 8)) (m : Memory) (a : Nat)
    (h : ∀ r ∈ l, ∀ c : Fin 8, a ≠ pixelAddress n r.val c.val) :
    (l.foldl (fun m r => placeRow n r.val t[r] m) m).read a = m.read a := by
  induction l generalizing m with
  | nil => rfl
  | cons r l ih =>
    rw [List.foldl_cons, ih _ fun k hk => h k (by simp [hk]), placeRow_read_other _ _ _ _ _ (h r (by simp))]

/-- TPLACE touches only the tile's 64 pixels (41 R120). -/
theorem placeTile_read_other (n : Nat) (t : Tile) (m : Memory) (a : Nat)
    (h : ∀ r c : Fin 8, a ≠ pixelAddress n r.val c.val) : (placeTile n t m).read a = m.read a :=
  placeRows_read_other _ _ _ _ _ fun r _ => h r

theorem placeRows_read_same (n : Nat) (t : Tile) (l : List (Fin 8)) (m : Memory) (r c : Fin 8) (hr : r ∈ l) :
    (l.foldl (fun m r => placeRow n r.val t[r] m) m).read (pixelAddress n r.val c.val) = some t[r][c] := by
  induction l generalizing m with
  | nil => cases hr
  | cons k l ih =>
    rw [List.foldl_cons]
    by_cases hl : r ∈ l
    · exact ih _ hl
    · rcases List.mem_cons.1 hr with rfl | hr
      · rw [placeRows_read_other, placeRow_read_same]
        intro j hj d e
        simp only [pixelAddress, tileX, tileY] at e
        exact hl ((Fin.ext (by omega) : r = j) ▸ hj)
      · exact absurd hr hl

/-- TPLACE writes `tile[r][c]` at row `r`, column `c` of the tile's rectangle (41 R120). -/
theorem placeTile_read_same (n : Nat) (t : Tile) (m : Memory) (r c : Fin 8) :
    (placeTile n t m).read (pixelAddress n r.val c.val) = some t[r][c] :=
  placeRows_read_same _ _ _ _ _ _ (by simp)

/-- What every address reads after TPLACE. -/
theorem placeTile_read (n : Nat) (t : Tile) (m : Memory) (a : Nat) :
    (placeTile n t m).read a =
      if tileOfAddress a = n then some (t[a / 128 % 8]'(Nat.mod_lt _ (by decide)))[a % 8] else m.read a := by
  split
  · rename_i e
    have := placeTile_read_same n t m ⟨a / 128 % 8, Nat.mod_lt _ (by decide)⟩ ⟨a % 8, Nat.mod_lt _ (by decide)⟩
    simp only [← e, pixelAddress_tileOfAddress] at this
    rw [← e]; exact this
  · rename_i e
    exact placeTile_read_other _ _ _ _ fun r c h => e (h ▸ (pixelAddress_fields r.isLt c.isLt).1)

/-- TPLACE of a tile index in range keeps the canvas in its one form. -/
theorem placeTile_wf {n : Nat} (t : Tile) {m : Memory} (hm : Memory.wf m) (hn : n < 512) : Memory.wf (placeTile n t m) := by
  have : ∀ (l : List (Fin 8)) (m : Memory), Memory.wf m → Memory.wf (l.foldl (fun m r => placeRow n r.val t[r] m) m) := by
    intro l
    induction l with
    | nil => exact fun m h => h
    | cons r l ih => exact fun m h => ih _ (placeRow_wf _ h hn r.isLt)
  exact this _ m hm

/-- The canvas a run starts with has the one form. -/
theorem State.reset_canvas_wf : Memory.wf State.reset.canvas := Memory.wf_nil

end Sys2Proof.Machine
end

