-- ==== Sys2Proof/Laws/Operands.lean ====
section
/-!
SUPPORT. The pure functions: bits, indices, the LUT, decoded tiles, register arrays that hold a value.
-/
namespace Sys2Proof.Machine

open Sys2Proof

/-- `bit(v, k)` is bit `k` (00_scope.md R7). -/
theorem bit_eq (v : Byte) (k : Nat) : bit v k = (v.getLsbD k).toNat := by
  simp only [bit, BitVec.getLsbD, Nat.testBit]
  have h : v.toNat >>> k &&& 1 = (v.toNat >>> k) % 2 := Nat.and_one_is_mod _
  rw [Nat.and_comm 1, h]
  rcases Nat.mod_two_eq_zero_or_one (v.toNat >>> k) with e | e <;> rw [e] <;> rfl

theorem bit_le (v : Byte) (k : Nat) : bit v k ≤ 1 := by rw [bit_eq]; exact Bool.toNat_le _

/-- The sum of PIXIDX never overflows 2 bits (40 R102). -/
theorem pixidx_toNat (a b : Byte) (c : Fin 8) :
    (pixidx a b c).toNat = bit a (7 - c.val) + 2 * bit b (7 - c.val) := by
  have ha := bit_le a (7 - c.val)
  have hb := bit_le b (7 - c.val)
  simp only [pixidx, BitVec.toNat_ofNat]
  omega

theorem lut_eq (P : Palette) (idx : BitVec 2) : lut P idx = P[idx.toFin] := rfl

@[simp] theorem tdecode_get (A B : Plane) (P : Palette) (r c : Fin 8) :
    (tdecode A B P)[r][c] = lut P (pixidx A[r] B[r] c) := by simp [tdecode]

@[simp] theorem tdecode_get_nat (A B : Plane) (P : Palette) (r c : Nat) (hr : r < 8) (hc : c < 8) :
    (tdecode A B P)[r][c] = lut P (pixidx A[r] B[r] ⟨c, hc⟩) := by simp [tdecode]

@[simp] theorem tileIndex_get (A B : Plane) (r c : Fin 8) : (tileIndex A B)[r][c] = pixidx A[r] B[r] c := by
  simp [tileIndex]

@[simp] theorem colourGrid_get (P : Palette) (g : Grid) (r c : Fin 8) : (colourGrid P g)[r][c] = lut P g[r][c] := by
  simp [colourGrid]

@[simp] theorem holding_get {α : Type} {n : Nat} (v : Vector α n) (i : Fin n) : (holding v)[i] = some v[i] := by
  simp [holding]

/-- Every element of a register array holds the value of `w` exactly when the array's values are `w`. -/
theorem allValues_eq_some {α : Type} {n : Nat} {v : Vector (Option α) n} {w : Vector α n} :
    allValues v = some w ↔ ∀ i : Fin n, v[i] = some w[i] := by
  unfold allValues
  constructor
  · intro h i
    split at h
    · rw [Option.some.injEq] at h
      subst h
      simp
    · cases h
  · intro h
    rw [dif_pos (fun i => by rw [h i]; rfl)]
    congr 1
    ext i hi
    have := h ⟨i, hi⟩
    simp only [Fin.getElem_fin] at this
    simp [this]

theorem allValues_holding {α : Type} {n : Nat} (v : Vector α n) : allValues (holding v) = some v :=
  allValues_eq_some.2 fun i => holding_get v i

/-- A register array one of whose elements holds no value has no values. -/
theorem allValues_eq_none {α : Type} {n : Nat} {v : Vector (Option α) n} (h : ∃ i : Fin n, v[i] = none) :
    allValues v = none := by
  obtain ⟨i, hi⟩ := h
  unfold allValues
  rw [dif_neg]
  intro hv
  have := hv i
  rw [hi] at this
  cases this

/-- A register array all of whose elements hold a value has its values. -/
theorem allValues_isSome {α : Type} {n : Nat} {v : Vector (Option α) n} (h : ∀ i : Fin n, v[i].isSome) :
    ∃ w, allValues v = some w := by
  unfold allValues
  rw [dif_pos h]
  exact ⟨_, rfl⟩

/-- STATUS as a number (10_state.md R27). -/
theorem State.status_toNat (s : State) :
    s.status.toNat =
      s.cause.code.toNat * 64 + s.cerr.toNat * 32 + s.cvv.toNat * 16 + s.hdrv.toNat * 8 + s.st.code.toNat := by
  unfold State.status
  generalize s.cerr = a, s.cvv = b, s.hdrv = c
  cases s.cause <;> cases s.st <;> cases a <;> cases b <;> cases c <;> decide

end Sys2Proof.Machine
end

