-- ==== Sys2Proof/Laws/State.lean ====
section
/-!
SUPPORT. For every named update of the state and every field: what the field is afterwards.
-/
namespace Sys2Proof.Machine

open Sys2Proof

/-! ### advanceCursor -/

@[simp] theorem State.advanceCursor_st (s : State) :
    s.advanceCursor.st = s.st := rfl

@[simp] theorem State.advanceCursor_tn (s : State) :
    s.advanceCursor.tn = s.tn := rfl

@[simp] theorem State.advanceCursor_bc (s : State) :
    s.advanceCursor.bc = s.bc := rfl

@[simp] theorem State.advanceCursor_cha (s : State) :
    s.advanceCursor.cha = s.cha := rfl

@[simp] theorem State.advanceCursor_chb (s : State) :
    s.advanceCursor.chb = s.chb := rfl

@[simp] theorem State.advanceCursor_pal (s : State) :
    s.advanceCursor.pal = s.pal := rfl

@[simp] theorem State.advanceCursor_canvas (s : State) :
    s.advanceCursor.canvas = s.canvas := rfl

@[simp] theorem State.advanceCursor_cvv (s : State) :
    s.advanceCursor.cvv = s.cvv := rfl

@[simp] theorem State.advanceCursor_sig (s : State) :
    s.advanceCursor.sig = s.sig := rfl

@[simp] theorem State.advanceCursor_prg (s : State) :
    s.advanceCursor.prg = s.prg := rfl

@[simp] theorem State.advanceCursor_chr (s : State) :
    s.advanceCursor.chr = s.chr := rfl

@[simp] theorem State.advanceCursor_hdrv (s : State) :
    s.advanceCursor.hdrv = s.hdrv := rfl

@[simp] theorem State.advanceCursor_cerr (s : State) :
    s.advanceCursor.cerr = s.cerr := rfl

@[simp] theorem State.advanceCursor_cause (s : State) :
    s.advanceCursor.cause = s.cause := rfl

@[simp] theorem State.advanceCursor_src (s : State) :
    s.advanceCursor.src = s.src := rfl

@[simp] theorem State.advanceCursor_scur (s : State) :
    s.advanceCursor.scur = s.scur + 1 := rfl

@[simp] theorem State.advanceCursor_agenda (s : State) :
    s.advanceCursor.agenda = s.agenda := rfl

@[simp] theorem State.advanceCursor_rdata (s : State) :
    s.advanceCursor.rdata = s.rdata := rfl

@[simp] theorem State.advanceCursor_wire (s : State) :
    s.advanceCursor.wire = s.wire := rfl

@[simp] theorem State.advanceCursor_marked (s : State) :
    s.advanceCursor.marked = s.marked := rfl

/-! ### raiseFault -/

@[simp] theorem State.raiseFault_st (f : Cause) (s : State) :
    (s.raiseFault f).st = .fault := rfl

@[simp] theorem State.raiseFault_tn (f : Cause) (s : State) :
    (s.raiseFault f).tn = s.tn := rfl

@[simp] theorem State.raiseFault_bc (f : Cause) (s : State) :
    (s.raiseFault f).bc = s.bc := rfl

@[simp] theorem State.raiseFault_cha (f : Cause) (s : State) :
    (s.raiseFault f).cha = s.cha := rfl

@[simp] theorem State.raiseFault_chb (f : Cause) (s : State) :
    (s.raiseFault f).chb = s.chb := rfl

@[simp] theorem State.raiseFault_pal (f : Cause) (s : State) :
    (s.raiseFault f).pal = s.pal := rfl

@[simp] theorem State.raiseFault_canvas (f : Cause) (s : State) :
    (s.raiseFault f).canvas = [] := rfl

@[simp] theorem State.raiseFault_cvv (f : Cause) (s : State) :
    (s.raiseFault f).cvv = false := rfl

@[simp] theorem State.raiseFault_sig (f : Cause) (s : State) :
    (s.raiseFault f).sig = Vector.replicate 4 none := rfl

@[simp] theorem State.raiseFault_prg (f : Cause) (s : State) :
    (s.raiseFault f).prg = none := rfl

@[simp] theorem State.raiseFault_chr (f : Cause) (s : State) :
    (s.raiseFault f).chr = none := rfl

@[simp] theorem State.raiseFault_hdrv (f : Cause) (s : State) :
    (s.raiseFault f).hdrv = false := rfl

@[simp] theorem State.raiseFault_cerr (f : Cause) (s : State) :
    (s.raiseFault f).cerr = s.cerr := rfl

@[simp] theorem State.raiseFault_cause (f : Cause) (s : State) :
    (s.raiseFault f).cause = f := rfl

@[simp] theorem State.raiseFault_src (f : Cause) (s : State) :
    (s.raiseFault f).src = s.src := rfl

@[simp] theorem State.raiseFault_scur (f : Cause) (s : State) :
    (s.raiseFault f).scur = s.scur := rfl

@[simp] theorem State.raiseFault_agenda (f : Cause) (s : State) :
    (s.raiseFault f).agenda = s.agenda := rfl

@[simp] theorem State.raiseFault_rdata (f : Cause) (s : State) :
    (s.raiseFault f).rdata = s.rdata := rfl

@[simp] theorem State.raiseFault_wire (f : Cause) (s : State) :
    (s.raiseFault f).wire = s.wire := rfl

@[simp] theorem State.raiseFault_marked (f : Cause) (s : State) :
    (s.raiseFault f).marked = s.marked := rfl

/-! ### refuseAction -/

@[simp] theorem State.refuseAction_st (s : State) :
    s.refuseAction.st = s.st := rfl

@[simp] theorem State.refuseAction_tn (s : State) :
    s.refuseAction.tn = s.tn := rfl

@[simp] theorem State.refuseAction_bc (s : State) :
    s.refuseAction.bc = s.bc := rfl

@[simp] theorem State.refuseAction_cha (s : State) :
    s.refuseAction.cha = s.cha := rfl

@[simp] theorem State.refuseAction_chb (s : State) :
    s.refuseAction.chb = s.chb := rfl

@[simp] theorem State.refuseAction_pal (s : State) :
    s.refuseAction.pal = s.pal := rfl

@[simp] theorem State.refuseAction_canvas (s : State) :
    s.refuseAction.canvas = s.canvas := rfl

@[simp] theorem State.refuseAction_cvv (s : State) :
    s.refuseAction.cvv = s.cvv := rfl

@[simp] theorem State.refuseAction_sig (s : State) :
    s.refuseAction.sig = s.sig := rfl

@[simp] theorem State.refuseAction_prg (s : State) :
    s.refuseAction.prg = s.prg := rfl

@[simp] theorem State.refuseAction_chr (s : State) :
    s.refuseAction.chr = s.chr := rfl

@[simp] theorem State.refuseAction_hdrv (s : State) :
    s.refuseAction.hdrv = s.hdrv := rfl

@[simp] theorem State.refuseAction_cerr (s : State) :
    s.refuseAction.cerr = true := rfl

@[simp] theorem State.refuseAction_cause (s : State) :
    s.refuseAction.cause = s.cause := rfl

@[simp] theorem State.refuseAction_src (s : State) :
    s.refuseAction.src = s.src := rfl

@[simp] theorem State.refuseAction_scur (s : State) :
    s.refuseAction.scur = s.scur := rfl

@[simp] theorem State.refuseAction_agenda (s : State) :
    s.refuseAction.agenda = s.agenda := rfl

@[simp] theorem State.refuseAction_rdata (s : State) :
    s.refuseAction.rdata = s.rdata := rfl

@[simp] theorem State.refuseAction_wire (s : State) :
    s.refuseAction.wire = s.wire := rfl

@[simp] theorem State.refuseAction_marked (s : State) :
    s.refuseAction.marked = s.marked := rfl

/-! ### deliver -/

@[simp] theorem State.deliver_st (d : Option Datum) (s : State) :
    (s.deliver d).st = s.st := rfl

@[simp] theorem State.deliver_tn (d : Option Datum) (s : State) :
    (s.deliver d).tn = s.tn := rfl

@[simp] theorem State.deliver_bc (d : Option Datum) (s : State) :
    (s.deliver d).bc = s.bc := rfl

@[simp] theorem State.deliver_cha (d : Option Datum) (s : State) :
    (s.deliver d).cha = s.cha := rfl

@[simp] theorem State.deliver_chb (d : Option Datum) (s : State) :
    (s.deliver d).chb = s.chb := rfl

@[simp] theorem State.deliver_pal (d : Option Datum) (s : State) :
    (s.deliver d).pal = s.pal := rfl

@[simp] theorem State.deliver_canvas (d : Option Datum) (s : State) :
    (s.deliver d).canvas = s.canvas := rfl

@[simp] theorem State.deliver_cvv (d : Option Datum) (s : State) :
    (s.deliver d).cvv = s.cvv := rfl

@[simp] theorem State.deliver_sig (d : Option Datum) (s : State) :
    (s.deliver d).sig = s.sig := rfl

@[simp] theorem State.deliver_prg (d : Option Datum) (s : State) :
    (s.deliver d).prg = s.prg := rfl

@[simp] theorem State.deliver_chr (d : Option Datum) (s : State) :
    (s.deliver d).chr = s.chr := rfl

@[simp] theorem State.deliver_hdrv (d : Option Datum) (s : State) :
    (s.deliver d).hdrv = s.hdrv := rfl

@[simp] theorem State.deliver_cerr (d : Option Datum) (s : State) :
    (s.deliver d).cerr = s.cerr := rfl

@[simp] theorem State.deliver_cause (d : Option Datum) (s : State) :
    (s.deliver d).cause = s.cause := rfl

@[simp] theorem State.deliver_src (d : Option Datum) (s : State) :
    (s.deliver d).src = s.src := rfl

@[simp] theorem State.deliver_scur (d : Option Datum) (s : State) :
    (s.deliver d).scur = s.scur := rfl

@[simp] theorem State.deliver_agenda (d : Option Datum) (s : State) :
    (s.deliver d).agenda = s.agenda := rfl

@[simp] theorem State.deliver_rdata (d : Option Datum) (s : State) :
    (s.deliver d).rdata = d := rfl

@[simp] theorem State.deliver_wire (d : Option Datum) (s : State) :
    (s.deliver d).wire = s.wire := rfl

@[simp] theorem State.deliver_marked (d : Option Datum) (s : State) :
    (s.deliver d).marked = (s.marked || d.isNone) := rfl

/-! ### startReadHeader -/

@[simp] theorem State.startReadHeader_st (s : State) :
    s.startReadHeader.st = .hdr := rfl

@[simp] theorem State.startReadHeader_tn (s : State) :
    s.startReadHeader.tn = s.tn := rfl

@[simp] theorem State.startReadHeader_bc (s : State) :
    s.startReadHeader.bc = 0 := rfl

@[simp] theorem State.startReadHeader_cha (s : State) :
    s.startReadHeader.cha = s.cha := rfl

@[simp] theorem State.startReadHeader_chb (s : State) :
    s.startReadHeader.chb = s.chb := rfl

@[simp] theorem State.startReadHeader_pal (s : State) :
    s.startReadHeader.pal = s.pal := rfl

@[simp] theorem State.startReadHeader_canvas (s : State) :
    s.startReadHeader.canvas = s.canvas := rfl

@[simp] theorem State.startReadHeader_cvv (s : State) :
    s.startReadHeader.cvv = s.cvv := rfl

@[simp] theorem State.startReadHeader_sig (s : State) :
    s.startReadHeader.sig = Vector.replicate 4 none := rfl

@[simp] theorem State.startReadHeader_prg (s : State) :
    s.startReadHeader.prg = none := rfl

@[simp] theorem State.startReadHeader_chr (s : State) :
    s.startReadHeader.chr = none := rfl

@[simp] theorem State.startReadHeader_hdrv (s : State) :
    s.startReadHeader.hdrv = false := rfl

@[simp] theorem State.startReadHeader_cerr (s : State) :
    s.startReadHeader.cerr = s.cerr := rfl

@[simp] theorem State.startReadHeader_cause (s : State) :
    s.startReadHeader.cause = s.cause := rfl

@[simp] theorem State.startReadHeader_src (s : State) :
    s.startReadHeader.src = s.src := rfl

@[simp] theorem State.startReadHeader_scur (s : State) :
    s.startReadHeader.scur = s.scur := rfl

@[simp] theorem State.startReadHeader_agenda (s : State) :
    s.startReadHeader.agenda = s.agenda := rfl

@[simp] theorem State.startReadHeader_rdata (s : State) :
    s.startReadHeader.rdata = s.rdata := rfl

@[simp] theorem State.startReadHeader_wire (s : State) :
    s.startReadHeader.wire = s.wire := rfl

@[simp] theorem State.startReadHeader_marked (s : State) :
    s.startReadHeader.marked = s.marked := rfl

/-! ### startDecodeBank -/

@[simp] theorem State.startDecodeBank_st (s : State) :
    s.startDecodeBank.st = .fetch := rfl

@[simp] theorem State.startDecodeBank_tn (s : State) :
    s.startDecodeBank.tn = 0 := rfl

@[simp] theorem State.startDecodeBank_bc (s : State) :
    s.startDecodeBank.bc = 0 := rfl

@[simp] theorem State.startDecodeBank_cha (s : State) :
    s.startDecodeBank.cha = s.cha := rfl

@[simp] theorem State.startDecodeBank_chb (s : State) :
    s.startDecodeBank.chb = s.chb := rfl

@[simp] theorem State.startDecodeBank_pal (s : State) :
    s.startDecodeBank.pal = s.pal := rfl

@[simp] theorem State.startDecodeBank_canvas (s : State) :
    s.startDecodeBank.canvas = [] := rfl

@[simp] theorem State.startDecodeBank_cvv (s : State) :
    s.startDecodeBank.cvv = false := rfl

@[simp] theorem State.startDecodeBank_sig (s : State) :
    s.startDecodeBank.sig = s.sig := rfl

@[simp] theorem State.startDecodeBank_prg (s : State) :
    s.startDecodeBank.prg = s.prg := rfl

@[simp] theorem State.startDecodeBank_chr (s : State) :
    s.startDecodeBank.chr = s.chr := rfl

@[simp] theorem State.startDecodeBank_hdrv (s : State) :
    s.startDecodeBank.hdrv = s.hdrv := rfl

@[simp] theorem State.startDecodeBank_cerr (s : State) :
    s.startDecodeBank.cerr = s.cerr := rfl

@[simp] theorem State.startDecodeBank_cause (s : State) :
    s.startDecodeBank.cause = s.cause := rfl

@[simp] theorem State.startDecodeBank_src (s : State) :
    s.startDecodeBank.src = s.src := rfl

@[simp] theorem State.startDecodeBank_scur (s : State) :
    s.startDecodeBank.scur = s.scur := rfl

@[simp] theorem State.startDecodeBank_agenda (s : State) :
    s.startDecodeBank.agenda = s.agenda := rfl

@[simp] theorem State.startDecodeBank_rdata (s : State) :
    s.startDecodeBank.rdata = s.rdata := rfl

@[simp] theorem State.startDecodeBank_wire (s : State) :
    s.startDecodeBank.wire = s.wire := rfl

@[simp] theorem State.startDecodeBank_marked (s : State) :
    s.startDecodeBank.marked = s.marked := rfl

/-! ### resetBlock -/

@[simp] theorem State.resetBlock_st (s : State) :
    s.resetBlock.st = .idle := rfl

@[simp] theorem State.resetBlock_tn (s : State) :
    s.resetBlock.tn = 0 := rfl

@[simp] theorem State.resetBlock_bc (s : State) :
    s.resetBlock.bc = 0 := rfl

@[simp] theorem State.resetBlock_cha (s : State) :
    s.resetBlock.cha = Vector.replicate 8 none := rfl

@[simp] theorem State.resetBlock_chb (s : State) :
    s.resetBlock.chb = Vector.replicate 8 none := rfl

@[simp] theorem State.resetBlock_pal (s : State) :
    s.resetBlock.pal = Vector.ofFn Config.defaultColour := rfl

@[simp] theorem State.resetBlock_canvas (s : State) :
    s.resetBlock.canvas = [] := rfl

@[simp] theorem State.resetBlock_cvv (s : State) :
    s.resetBlock.cvv = false := rfl

@[simp] theorem State.resetBlock_sig (s : State) :
    s.resetBlock.sig = Vector.replicate 4 none := rfl

@[simp] theorem State.resetBlock_prg (s : State) :
    s.resetBlock.prg = none := rfl

@[simp] theorem State.resetBlock_chr (s : State) :
    s.resetBlock.chr = none := rfl

@[simp] theorem State.resetBlock_hdrv (s : State) :
    s.resetBlock.hdrv = false := rfl

@[simp] theorem State.resetBlock_cerr (s : State) :
    s.resetBlock.cerr = false := rfl

@[simp] theorem State.resetBlock_cause (s : State) :
    s.resetBlock.cause = .none := rfl

@[simp] theorem State.resetBlock_src (s : State) :
    s.resetBlock.src = s.src := rfl

@[simp] theorem State.resetBlock_scur (s : State) :
    s.resetBlock.scur = s.scur := rfl

@[simp] theorem State.resetBlock_agenda (s : State) :
    s.resetBlock.agenda = s.agenda := rfl

@[simp] theorem State.resetBlock_rdata (s : State) :
    s.resetBlock.rdata = s.rdata := rfl

@[simp] theorem State.resetBlock_wire (s : State) :
    s.resetBlock.wire = s.wire := rfl

@[simp] theorem State.resetBlock_marked (s : State) :
    s.resetBlock.marked = s.marked := rfl

/-! ### takePlaneByte -/

@[simp] theorem State.takePlaneByte_st (v : Byte) (s : State) :
    (s.takePlaneByte v).st = s.st := by
  unfold State.takePlaneByte; split <;> rfl

@[simp] theorem State.takePlaneByte_tn (v : Byte) (s : State) :
    (s.takePlaneByte v).tn = s.tn := by
  unfold State.takePlaneByte; split <;> rfl

@[simp] theorem State.takePlaneByte_bc (v : Byte) (s : State) :
    (s.takePlaneByte v).bc = s.bc + 1 := by
  unfold State.takePlaneByte; split <;> rfl

@[simp] theorem State.takePlaneByte_cha (v : Byte) (s : State) :
    (s.takePlaneByte v).cha = (if s.bc.toNat < 8 then s.cha.setIfInBounds s.bc.toNat (some v) else s.cha) := by
  unfold State.takePlaneByte; split <;> rfl

@[simp] theorem State.takePlaneByte_chb (v : Byte) (s : State) :
    (s.takePlaneByte v).chb = (if s.bc.toNat < 8 then s.chb else s.chb.setIfInBounds (s.bc.toNat - 8) (some v)) := by
  unfold State.takePlaneByte; split <;> rfl

@[simp] theorem State.takePlaneByte_pal (v : Byte) (s : State) :
    (s.takePlaneByte v).pal = s.pal := by
  unfold State.takePlaneByte; split <;> rfl

@[simp] theorem State.takePlaneByte_canvas (v : Byte) (s : State) :
    (s.takePlaneByte v).canvas = s.canvas := by
  unfold State.takePlaneByte; split <;> rfl

@[simp] theorem State.takePlaneByte_cvv (v : Byte) (s : State) :
    (s.takePlaneByte v).cvv = s.cvv := by
  unfold State.takePlaneByte; split <;> rfl

@[simp] theorem State.takePlaneByte_sig (v : Byte) (s : State) :
    (s.takePlaneByte v).sig = s.sig := by
  unfold State.takePlaneByte; split <;> rfl

@[simp] theorem State.takePlaneByte_prg (v : Byte) (s : State) :
    (s.takePlaneByte v).prg = s.prg := by
  unfold State.takePlaneByte; split <;> rfl

@[simp] theorem State.takePlaneByte_chr (v : Byte) (s : State) :
    (s.takePlaneByte v).chr = s.chr := by
  unfold State.takePlaneByte; split <;> rfl

@[simp] theorem State.takePlaneByte_hdrv (v : Byte) (s : State) :
    (s.takePlaneByte v).hdrv = s.hdrv := by
  unfold State.takePlaneByte; split <;> rfl

@[simp] theorem State.takePlaneByte_cerr (v : Byte) (s : State) :
    (s.takePlaneByte v).cerr = s.cerr := by
  unfold State.takePlaneByte; split <;> rfl

@[simp] theorem State.takePlaneByte_cause (v : Byte) (s : State) :
    (s.takePlaneByte v).cause = s.cause := by
  unfold State.takePlaneByte; split <;> rfl

@[simp] theorem State.takePlaneByte_src (v : Byte) (s : State) :
    (s.takePlaneByte v).src = s.src := by
  unfold State.takePlaneByte; split <;> rfl

@[simp] theorem State.takePlaneByte_scur (v : Byte) (s : State) :
    (s.takePlaneByte v).scur = s.scur := by
  unfold State.takePlaneByte; split <;> rfl

@[simp] theorem State.takePlaneByte_agenda (v : Byte) (s : State) :
    (s.takePlaneByte v).agenda = s.agenda := by
  unfold State.takePlaneByte; split <;> rfl

@[simp] theorem State.takePlaneByte_rdata (v : Byte) (s : State) :
    (s.takePlaneByte v).rdata = s.rdata := by
  unfold State.takePlaneByte; split <;> rfl

@[simp] theorem State.takePlaneByte_wire (v : Byte) (s : State) :
    (s.takePlaneByte v).wire = s.wire := by
  unfold State.takePlaneByte; split <;> rfl

@[simp] theorem State.takePlaneByte_marked (v : Byte) (s : State) :
    (s.takePlaneByte v).marked = s.marked := by
  unfold State.takePlaneByte; split <;> rfl

/-! ### closeRecord -/

@[simp] theorem State.closeRecord_st (s : State) :
    s.closeRecord.st = (if s.bc = 16 then .emit else s.st) := by
  unfold State.closeRecord; split <;> rfl

@[simp] theorem State.closeRecord_tn (s : State) :
    s.closeRecord.tn = s.tn := by
  unfold State.closeRecord; split <;> rfl

@[simp] theorem State.closeRecord_bc (s : State) :
    s.closeRecord.bc = s.bc := by
  unfold State.closeRecord; split <;> rfl

@[simp] theorem State.closeRecord_cha (s : State) :
    s.closeRecord.cha = s.cha := by
  unfold State.closeRecord; split <;> rfl

@[simp] theorem State.closeRecord_chb (s : State) :
    s.closeRecord.chb = s.chb := by
  unfold State.closeRecord; split <;> rfl

@[simp] theorem State.closeRecord_pal (s : State) :
    s.closeRecord.pal = s.pal := by
  unfold State.closeRecord; split <;> rfl

@[simp] theorem State.closeRecord_canvas (s : State) :
    s.closeRecord.canvas = s.canvas := by
  unfold State.closeRecord; split <;> rfl

@[simp] theorem State.closeRecord_cvv (s : State) :
    s.closeRecord.cvv = s.cvv := by
  unfold State.closeRecord; split <;> rfl

@[simp] theorem State.closeRecord_sig (s : State) :
    s.closeRecord.sig = s.sig := by
  unfold State.closeRecord; split <;> rfl

@[simp] theorem State.closeRecord_prg (s : State) :
    s.closeRecord.prg = s.prg := by
  unfold State.closeRecord; split <;> rfl

@[simp] theorem State.closeRecord_chr (s : State) :
    s.closeRecord.chr = s.chr := by
  unfold State.closeRecord; split <;> rfl

@[simp] theorem State.closeRecord_hdrv (s : State) :
    s.closeRecord.hdrv = s.hdrv := by
  unfold State.closeRecord; split <;> rfl

@[simp] theorem State.closeRecord_cerr (s : State) :
    s.closeRecord.cerr = s.cerr := by
  unfold State.closeRecord; split <;> rfl

@[simp] theorem State.closeRecord_cause (s : State) :
    s.closeRecord.cause = s.cause := by
  unfold State.closeRecord; split <;> rfl

@[simp] theorem State.closeRecord_src (s : State) :
    s.closeRecord.src = s.src := by
  unfold State.closeRecord; split <;> rfl

@[simp] theorem State.closeRecord_scur (s : State) :
    s.closeRecord.scur = s.scur := by
  unfold State.closeRecord; split <;> rfl

@[simp] theorem State.closeRecord_agenda (s : State) :
    s.closeRecord.agenda = s.agenda := by
  unfold State.closeRecord; split <;> rfl

@[simp] theorem State.closeRecord_rdata (s : State) :
    s.closeRecord.rdata = s.rdata := by
  unfold State.closeRecord; split <;> rfl

@[simp] theorem State.closeRecord_wire (s : State) :
    s.closeRecord.wire = s.wire := by
  unfold State.closeRecord; split <;> rfl

@[simp] theorem State.closeRecord_marked (s : State) :
    s.closeRecord.marked = s.marked := by
  unfold State.closeRecord; split <;> rfl

/-! ### takeHeaderByte -/

@[simp] theorem State.takeHeaderByte_st (v : Byte) (s : State) :
    (s.takeHeaderByte v).st = s.st := by
  unfold State.takeHeaderByte; split
  · rfl
  · split <;> rfl

@[simp] theorem State.takeHeaderByte_tn (v : Byte) (s : State) :
    (s.takeHeaderByte v).tn = s.tn := by
  unfold State.takeHeaderByte; split
  · rfl
  · split <;> rfl

@[simp] theorem State.takeHeaderByte_bc (v : Byte) (s : State) :
    (s.takeHeaderByte v).bc = s.bc + 1 := by
  unfold State.takeHeaderByte; split
  · rfl
  · split <;> rfl

@[simp] theorem State.takeHeaderByte_cha (v : Byte) (s : State) :
    (s.takeHeaderByte v).cha = s.cha := by
  unfold State.takeHeaderByte; split
  · rfl
  · split <;> rfl

@[simp] theorem State.takeHeaderByte_chb (v : Byte) (s : State) :
    (s.takeHeaderByte v).chb = s.chb := by
  unfold State.takeHeaderByte; split
  · rfl
  · split <;> rfl

@[simp] theorem State.takeHeaderByte_pal (v : Byte) (s : State) :
    (s.takeHeaderByte v).pal = s.pal := by
  unfold State.takeHeaderByte; split
  · rfl
  · split <;> rfl

@[simp] theorem State.takeHeaderByte_canvas (v : Byte) (s : State) :
    (s.takeHeaderByte v).canvas = s.canvas := by
  unfold State.takeHeaderByte; split
  · rfl
  · split <;> rfl

@[simp] theorem State.takeHeaderByte_cvv (v : Byte) (s : State) :
    (s.takeHeaderByte v).cvv = s.cvv := by
  unfold State.takeHeaderByte; split
  · rfl
  · split <;> rfl

@[simp] theorem State.takeHeaderByte_sig (v : Byte) (s : State) :
    (s.takeHeaderByte v).sig = (if s.bc.toNat < 4 then s.sig.setIfInBounds s.bc.toNat (some v) else s.sig) := by
  unfold State.takeHeaderByte; split
  · rfl
  · split <;> rfl

@[simp] theorem State.takeHeaderByte_prg (v : Byte) (s : State) :
    (s.takeHeaderByte v).prg = (if s.bc.toNat = 4 then some v else s.prg) := by
  unfold State.takeHeaderByte; split
  · simp; omega
  · split <;> simp

@[simp] theorem State.takeHeaderByte_chr (v : Byte) (s : State) :
    (s.takeHeaderByte v).chr = (if 4 < s.bc.toNat then some v else s.chr) := by
  unfold State.takeHeaderByte; split
  · simp; omega
  · split <;> simp <;> omega

@[simp] theorem State.takeHeaderByte_hdrv (v : Byte) (s : State) :
    (s.takeHeaderByte v).hdrv = s.hdrv := by
  unfold State.takeHeaderByte; split
  · rfl
  · split <;> rfl

@[simp] theorem State.takeHeaderByte_cerr (v : Byte) (s : State) :
    (s.takeHeaderByte v).cerr = s.cerr := by
  unfold State.takeHeaderByte; split
  · rfl
  · split <;> rfl

@[simp] theorem State.takeHeaderByte_cause (v : Byte) (s : State) :
    (s.takeHeaderByte v).cause = s.cause := by
  unfold State.takeHeaderByte; split
  · rfl
  · split <;> rfl

@[simp] theorem State.takeHeaderByte_src (v : Byte) (s : State) :
    (s.takeHeaderByte v).src = s.src := by
  unfold State.takeHeaderByte; split
  · rfl
  · split <;> rfl

@[simp] theorem State.takeHeaderByte_scur (v : Byte) (s : State) :
    (s.takeHeaderByte v).scur = s.scur := by
  unfold State.takeHeaderByte; split
  · rfl
  · split <;> rfl

@[simp] theorem State.takeHeaderByte_agenda (v : Byte) (s : State) :
    (s.takeHeaderByte v).agenda = s.agenda := by
  unfold State.takeHeaderByte; split
  · rfl
  · split <;> rfl

@[simp] theorem State.takeHeaderByte_rdata (v : Byte) (s : State) :
    (s.takeHeaderByte v).rdata = s.rdata := by
  unfold State.takeHeaderByte; split
  · rfl
  · split <;> rfl

@[simp] theorem State.takeHeaderByte_wire (v : Byte) (s : State) :
    (s.takeHeaderByte v).wire = s.wire := by
  unfold State.takeHeaderByte; split
  · rfl
  · split <;> rfl

@[simp] theorem State.takeHeaderByte_marked (v : Byte) (s : State) :
    (s.takeHeaderByte v).marked = s.marked := by
  unfold State.takeHeaderByte; split
  · rfl
  · split <;> rfl

/-! ### closeHeader -/

@[simp] theorem State.closeHeader_st (s : State) :
    s.closeHeader.st = (if s.bc = 6 then .idle else s.st) := by
  unfold State.closeHeader; split <;> rfl

@[simp] theorem State.closeHeader_tn (s : State) :
    s.closeHeader.tn = s.tn := by
  unfold State.closeHeader; split <;> rfl

@[simp] theorem State.closeHeader_bc (s : State) :
    s.closeHeader.bc = (if s.bc = 6 then 0 else s.bc) := by
  unfold State.closeHeader; split <;> rfl

@[simp] theorem State.closeHeader_cha (s : State) :
    s.closeHeader.cha = s.cha := by
  unfold State.closeHeader; split <;> rfl

@[simp] theorem State.closeHeader_chb (s : State) :
    s.closeHeader.chb = s.chb := by
  unfold State.closeHeader; split <;> rfl

@[simp] theorem State.closeHeader_pal (s : State) :
    s.closeHeader.pal = s.pal := by
  unfold State.closeHeader; split <;> rfl

@[simp] theorem State.closeHeader_canvas (s : State) :
    s.closeHeader.canvas = s.canvas := by
  unfold State.closeHeader; split <;> rfl

@[simp] theorem State.closeHeader_cvv (s : State) :
    s.closeHeader.cvv = s.cvv := by
  unfold State.closeHeader; split <;> rfl

@[simp] theorem State.closeHeader_sig (s : State) :
    s.closeHeader.sig = s.sig := by
  unfold State.closeHeader; split <;> rfl

@[simp] theorem State.closeHeader_prg (s : State) :
    s.closeHeader.prg = s.prg := by
  unfold State.closeHeader; split <;> rfl

@[simp] theorem State.closeHeader_chr (s : State) :
    s.closeHeader.chr = s.chr := by
  unfold State.closeHeader; split <;> rfl

@[simp] theorem State.closeHeader_hdrv (s : State) :
    s.closeHeader.hdrv = (if s.bc = 6 then true else s.hdrv) := by
  unfold State.closeHeader; split <;> rfl

@[simp] theorem State.closeHeader_cerr (s : State) :
    s.closeHeader.cerr = s.cerr := by
  unfold State.closeHeader; split <;> rfl

@[simp] theorem State.closeHeader_cause (s : State) :
    s.closeHeader.cause = s.cause := by
  unfold State.closeHeader; split <;> rfl

@[simp] theorem State.closeHeader_src (s : State) :
    s.closeHeader.src = s.src := by
  unfold State.closeHeader; split <;> rfl

@[simp] theorem State.closeHeader_scur (s : State) :
    s.closeHeader.scur = s.scur := by
  unfold State.closeHeader; split <;> rfl

@[simp] theorem State.closeHeader_agenda (s : State) :
    s.closeHeader.agenda = s.agenda := by
  unfold State.closeHeader; split <;> rfl

@[simp] theorem State.closeHeader_rdata (s : State) :
    s.closeHeader.rdata = s.rdata := by
  unfold State.closeHeader; split <;> rfl

@[simp] theorem State.closeHeader_wire (s : State) :
    s.closeHeader.wire = s.wire := by
  unfold State.closeHeader; split <;> rfl

@[simp] theorem State.closeHeader_marked (s : State) :
    s.closeHeader.marked = s.marked := by
  unfold State.closeHeader; split <;> rfl

/-! ### advanceTile -/

@[simp] theorem State.advanceTile_st (s : State) :
    s.advanceTile.st = (if s.tn.toNat + 1 = 512 then .idle else .fetch) := by
  unfold State.advanceTile; split <;> rfl

@[simp] theorem State.advanceTile_tn (s : State) :
    s.advanceTile.tn = s.tn + 1 := by
  unfold State.advanceTile; split <;> rfl

@[simp] theorem State.advanceTile_bc (s : State) :
    s.advanceTile.bc = 0 := by
  unfold State.advanceTile; split <;> rfl

@[simp] theorem State.advanceTile_cha (s : State) :
    s.advanceTile.cha = s.cha := by
  unfold State.advanceTile; split <;> rfl

@[simp] theorem State.advanceTile_chb (s : State) :
    s.advanceTile.chb = s.chb := by
  unfold State.advanceTile; split <;> rfl

@[simp] theorem State.advanceTile_pal (s : State) :
    s.advanceTile.pal = s.pal := by
  unfold State.advanceTile; split <;> rfl

@[simp] theorem State.advanceTile_canvas (s : State) :
    s.advanceTile.canvas = s.canvas := by
  unfold State.advanceTile; split <;> rfl

@[simp] theorem State.advanceTile_cvv (s : State) :
    s.advanceTile.cvv = (if s.tn.toNat + 1 = 512 then true else s.cvv) := by
  unfold State.advanceTile; split <;> rfl

@[simp] theorem State.advanceTile_sig (s : State) :
    s.advanceTile.sig = s.sig := by
  unfold State.advanceTile; split <;> rfl

@[simp] theorem State.advanceTile_prg (s : State) :
    s.advanceTile.prg = s.prg := by
  unfold State.advanceTile; split <;> rfl

@[simp] theorem State.advanceTile_chr (s : State) :
    s.advanceTile.chr = s.chr := by
  unfold State.advanceTile; split <;> rfl

@[simp] theorem State.advanceTile_hdrv (s : State) :
    s.advanceTile.hdrv = s.hdrv := by
  unfold State.advanceTile; split <;> rfl

@[simp] theorem State.advanceTile_cerr (s : State) :
    s.advanceTile.cerr = s.cerr := by
  unfold State.advanceTile; split <;> rfl

@[simp] theorem State.advanceTile_cause (s : State) :
    s.advanceTile.cause = s.cause := by
  unfold State.advanceTile; split <;> rfl

@[simp] theorem State.advanceTile_src (s : State) :
    s.advanceTile.src = s.src := by
  unfold State.advanceTile; split <;> rfl

@[simp] theorem State.advanceTile_scur (s : State) :
    s.advanceTile.scur = s.scur := by
  unfold State.advanceTile; split <;> rfl

@[simp] theorem State.advanceTile_agenda (s : State) :
    s.advanceTile.agenda = s.agenda := by
  unfold State.advanceTile; split <;> rfl

@[simp] theorem State.advanceTile_rdata (s : State) :
    s.advanceTile.rdata = s.rdata := by
  unfold State.advanceTile; split <;> rfl

@[simp] theorem State.advanceTile_wire (s : State) :
    s.advanceTile.wire = s.wire := by
  unfold State.advanceTile; split <;> rfl

@[simp] theorem State.advanceTile_marked (s : State) :
    s.advanceTile.marked = s.marked := by
  unfold State.advanceTile; split <;> rfl

/-! ### emitTile -/

@[simp] theorem State.emitTile_st (A B : Plane) (s : State) :
    (s.emitTile A B).st = (if s.tn.toNat + 1 = 512 then .idle else .fetch) := by simp [State.emitTile]

@[simp] theorem State.emitTile_tn (A B : Plane) (s : State) :
    (s.emitTile A B).tn = s.tn + 1 := by simp [State.emitTile]

@[simp] theorem State.emitTile_bc (A B : Plane) (s : State) :
    (s.emitTile A B).bc = 0 := by simp [State.emitTile]

@[simp] theorem State.emitTile_cha (A B : Plane) (s : State) :
    (s.emitTile A B).cha = s.cha := by simp [State.emitTile]

@[simp] theorem State.emitTile_chb (A B : Plane) (s : State) :
    (s.emitTile A B).chb = s.chb := by simp [State.emitTile]

@[simp] theorem State.emitTile_pal (A B : Plane) (s : State) :
    (s.emitTile A B).pal = s.pal := by simp [State.emitTile]

@[simp] theorem State.emitTile_canvas (A B : Plane) (s : State) :
    (s.emitTile A B).canvas = placeTile s.tn.toNat (tdecode A B s.pal) s.canvas := by simp [State.emitTile]

@[simp] theorem State.emitTile_cvv (A B : Plane) (s : State) :
    (s.emitTile A B).cvv = (if s.tn.toNat + 1 = 512 then true else s.cvv) := by simp [State.emitTile]

@[simp] theorem State.emitTile_sig (A B : Plane) (s : State) :
    (s.emitTile A B).sig = s.sig := by simp [State.emitTile]

@[simp] theorem State.emitTile_prg (A B : Plane) (s : State) :
    (s.emitTile A B).prg = s.prg := by simp [State.emitTile]

@[simp] theorem State.emitTile_chr (A B : Plane) (s : State) :
    (s.emitTile A B).chr = s.chr := by simp [State.emitTile]

@[simp] theorem State.emitTile_hdrv (A B : Plane) (s : State) :
    (s.emitTile A B).hdrv = s.hdrv := by simp [State.emitTile]

@[simp] theorem State.emitTile_cerr (A B : Plane) (s : State) :
    (s.emitTile A B).cerr = s.cerr := by simp [State.emitTile]

@[simp] theorem State.emitTile_cause (A B : Plane) (s : State) :
    (s.emitTile A B).cause = s.cause := by simp [State.emitTile]

@[simp] theorem State.emitTile_src (A B : Plane) (s : State) :
    (s.emitTile A B).src = s.src := by simp [State.emitTile]

@[simp] theorem State.emitTile_scur (A B : Plane) (s : State) :
    (s.emitTile A B).scur = s.scur := by simp [State.emitTile]

@[simp] theorem State.emitTile_agenda (A B : Plane) (s : State) :
    (s.emitTile A B).agenda = s.agenda := by simp [State.emitTile]

@[simp] theorem State.emitTile_rdata (A B : Plane) (s : State) :
    (s.emitTile A B).rdata = s.rdata := by simp [State.emitTile]

@[simp] theorem State.emitTile_wire (A B : Plane) (s : State) :
    (s.emitTile A B).wire = s.wire := by simp [State.emitTile]

@[simp] theorem State.emitTile_marked (A B : Plane) (s : State) :
    (s.emitTile A B).marked = s.marked := by simp [State.emitTile]

end Sys2Proof.Machine
end

