-- ==== Sys2Proof/Laws/Ops.lean ====
section
/-!
SUPPORT. The shared operations: what each can answer.
-/
namespace Sys2Proof.Machine

open Sys2Proof

/-- A byte answered is the one at the cursor, and only the cursor has moved (20_memory.md R41). -/
theorem State.streamNext_eq_some {s s1 : State} {v : Byte} :
    s.streamNext = some (v, s1) ↔ s.src[s.scur]? = some v ∧ s1 = s.advanceCursor := by
  unfold State.streamNext
  split
  · rename_i w h
    simp [h, eq_comm]
  · rename_i h
    simp [h]

/-- EOS is answered exactly at or past the end (20_memory.md R41). -/
theorem State.streamNext_eq_none {s : State} : s.streamNext = none ↔ s.src.length ≤ s.scur := by
  unfold State.streamNext
  split
  · rename_i w h
    simp only [reduceCtorEq, false_iff, Nat.not_le]
    exact (List.getElem?_eq_some_iff.1 h).1
  · rename_i h
    simpa using h

/-- StreamNext with a byte there. -/
theorem State.streamNext_of_byte {s : State} {v : Byte} (h : s.src[s.scur]? = some v) :
    s.streamNext = some (v, s.advanceCursor) :=
  State.streamNext_eq_some.2 ⟨h, rfl⟩

/-- StreamNext at the end. -/
theorem State.streamNext_at_end {s : State} (h : s.src.length ≤ s.scur) : s.streamNext = none :=
  State.streamNext_eq_none.2 h

/-- A read of a value leaves the mark as it was. -/
theorem State.deliver_some (s : State) (d : Datum) : s.deliver (some d) = { s with rdata := some d } := by
  simp [State.deliver]

/-- A read of no value marks the run. -/
theorem State.deliver_none (s : State) : s.deliver none = { s with rdata := none, marked := true } := by
  simp [State.deliver]

/-- `BC + 1` does not wrap in a record. -/
theorem toNat_bc_add_one {b : BitVec 5} (h : b.toNat ≤ 16) : (b + 1).toNat = b.toNat + 1 := by
  simp [BitVec.toNat_add]; omega

/-- `TN + 1` does not wrap in a bank. -/
theorem toNat_tn_add_one {n : BitVec 10} (h : n.toNat ≤ 511) : (n + 1).toNat = n.toNat + 1 := by
  simp [BitVec.toNat_add]; omega

/-- Reading `n + 1` bytes with one there. -/
theorem State.fetchBytes_succ {s : State} {v : Byte} (n : Nat) (h : s.src[s.scur]? = some v) :
    s.fetchBytes (n + 1) = (s.advanceCursor.takePlaneByte v).fetchBytes n := by
  simp only [State.fetchBytes, State.streamNext_of_byte h]

/-- Reading at the end of the stream is the fault. -/
theorem State.fetchBytes_at_end {s : State} (n : Nat) (h : s.src.length ≤ s.scur) :
    s.fetchBytes (n + 1) = s.raiseFault .bankUnderrun := by
  simp only [State.fetchBytes, State.streamNext_at_end h]

/-- The operations that no rule lets touch the stream do not. -/
theorem State.fetchBytes_src (n : Nat) (s : State) : (s.fetchBytes n).src = s.src := by
  induction n generalizing s with
  | zero => simp [State.fetchBytes]
  | succ n ih =>
    cases h : s.streamNext with
    | none => simp [State.fetchBytes, h]
    | some p =>
      obtain ⟨v, s1⟩ := p
      obtain ⟨_, rfl⟩ := State.streamNext_eq_some.1 h
      simp [State.fetchBytes, h, ih]

/-- What reading the bytes of a tile record leaves alone, whether or not the stream ends among them. -/
theorem State.fetchBytes_frame (n : Nat) (s : State) :
    (s.fetchBytes n).tn = s.tn ∧ (s.fetchBytes n).pal = s.pal ∧ (s.fetchBytes n).cerr = s.cerr ∧
    (s.fetchBytes n).agenda = s.agenda ∧ (s.fetchBytes n).rdata = s.rdata ∧ (s.fetchBytes n).wire = s.wire ∧
    (s.fetchBytes n).marked = s.marked := by
  induction n generalizing s with
  | zero => simp [State.fetchBytes]
  | succ n ih =>
    rcases Nat.lt_or_ge s.scur s.src.length with h | h
    · rw [State.fetchBytes_succ n (List.getElem?_eq_getElem h)]
      simpa using ih (s.advanceCursor.takePlaneByte s.src[s.scur])
    · rw [State.fetchBytes_at_end n h]; simp

/-- Reading the bytes of a tile record either keeps canvas, flags and header result, or is the fault. -/
theorem State.fetchBytes_cases (n : Nat) (s : State) :
    (((s.fetchBytes n).st = s.st ∨ (s.fetchBytes n).st = .emit) ∧ (s.fetchBytes n).canvas = s.canvas ∧
      (s.fetchBytes n).cvv = s.cvv ∧ (s.fetchBytes n).hdrv = s.hdrv ∧ (s.fetchBytes n).cause = s.cause ∧
      (s.fetchBytes n).sig = s.sig ∧ (s.fetchBytes n).prg = s.prg ∧ (s.fetchBytes n).chr = s.chr) ∨
    ∃ u, s.fetchBytes n = State.raiseFault .bankUnderrun u := by
  induction n generalizing s with
  | zero =>
    refine .inl ?_
    simp only [State.fetchBytes, State.closeRecord]
    split <;> simp
  | succ n ih =>
    rcases Nat.lt_or_ge s.scur s.src.length with h | h
    · rw [State.fetchBytes_succ n (List.getElem?_eq_getElem h)]
      simpa using ih (s.advanceCursor.takePlaneByte s.src[s.scur])
    · exact .inr ⟨s, State.fetchBytes_at_end n h⟩

end Sys2Proof.Machine
end

