-- ==== Sys2Proof/Laws/PerInstr.lean ====
section
/-!
SUPPORT. Per-instruction family `Carried`: an operation has an encoding exactly when the table gives its format one
(30_encoding.md R86: MICRO and EVENT rows have none).
-/
namespace Sys2Proof

/-- The formats MICRO and EVENT of the opcode table. -/
def Instr.internal : Instr → Bool
  | .tfetch | .pixidx _ _ _ | .lut _ | .tdecode | .tplace _ _ | .fetchStep | .emitStep | .hdrStep | .reset => true
  | .nop | .readHeader | .decodeBank | .reserved03 | .reserved04to07 _ | .reserved08to0F _ | .reserved10to1F _ => false
  | .reserved20to3F _ | .reserved40to7F _ | .reserved80toFF _ | .ldpal _ _ | .rdStatus | .rdTn | .rdBc | .rdPal _ => false
  | .rdSig _ | .rdPrg | .rdChr | .rdSigok | .rdpix _ | .tile _ _ | .hdr _ _ _ | .isValidSignature _ => false

namespace Laws.Carried

/-- The instruction has no encoding exactly when it is internal. -/
def Statement (i : Instr) : Prop := encode i = none ↔ i.internal = true

theorem nop : Statement .nop := by simp [Statement, encode, Instr.internal]

theorem readHeader : Statement .readHeader := by simp [Statement, encode, Instr.internal]

theorem decodeBank : Statement .decodeBank := by simp [Statement, encode, Instr.internal]

theorem reserved03 : Statement .reserved03 := by simp [Statement, encode, Instr.internal]

theorem reserved04to07 (x : BitVec 2) : Statement (.reserved04to07 x) := by simp [Statement, encode, Instr.internal]

theorem reserved08to0F (x : BitVec 3) : Statement (.reserved08to0F x) := by simp [Statement, encode, Instr.internal]

theorem reserved10to1F (x : BitVec 4) : Statement (.reserved10to1F x) := by simp [Statement, encode, Instr.internal]

theorem reserved20to3F (x : BitVec 5) : Statement (.reserved20to3F x) := by simp [Statement, encode, Instr.internal]

theorem reserved40to7F (x : BitVec 6) : Statement (.reserved40to7F x) := by simp [Statement, encode, Instr.internal]

theorem reserved80toFF (x : BitVec 7) : Statement (.reserved80toFF x) := by simp [Statement, encode, Instr.internal]

theorem ldpal (i : BitVec 2) (v : Color) : Statement (.ldpal i v) := by simp [Statement, encode, Instr.internal]

theorem rdStatus : Statement .rdStatus := by simp [Statement, encode, Instr.internal]

theorem rdTn : Statement .rdTn := by simp [Statement, encode, Instr.internal]

theorem rdBc : Statement .rdBc := by simp [Statement, encode, Instr.internal]

theorem rdPal (i : BitVec 2) : Statement (.rdPal i) := by simp [Statement, encode, Instr.internal]

theorem rdSig (i : BitVec 2) : Statement (.rdSig i) := by simp [Statement, encode, Instr.internal]

theorem rdPrg : Statement .rdPrg := by simp [Statement, encode, Instr.internal]

theorem rdChr : Statement .rdChr := by simp [Statement, encode, Instr.internal]

theorem rdSigok : Statement .rdSigok := by simp [Statement, encode, Instr.internal]

theorem rdpix (a : BitVec 15) : Statement (.rdpix a) := by simp [Statement, encode, Instr.internal]

theorem tile (A B : Plane) : Statement (.tile A B) := by simp [Statement, encode, Instr.internal]

theorem hdr (v : Vector Byte 4) (p c : Byte) : Statement (.hdr v p c) := by simp [Statement, encode, Instr.internal]

theorem isValidSignature (l : List Byte) : Statement (.isValidSignature l) := by simp [Statement, encode, Instr.internal]

theorem tfetch : Statement .tfetch := by simp [Statement, encode, Instr.internal]

theorem pixidx (a b : Byte) (c : Fin 8) : Statement (.pixidx a b c) := by simp [Statement, encode, Instr.internal]

theorem lut (idx : BitVec 2) : Statement (.lut idx) := by simp [Statement, encode, Instr.internal]

theorem tdecode : Statement .tdecode := by simp [Statement, encode, Instr.internal]

theorem tplace (n : BitVec 10) (t : Tile) : Statement (.tplace n t) := by simp [Statement, encode, Instr.internal]

theorem fetchStep : Statement .fetchStep := by simp [Statement, encode, Instr.internal]

theorem emitStep : Statement .emitStep := by simp [Statement, encode, Instr.internal]

theorem hdrStep : Statement .hdrStep := by simp [Statement, encode, Instr.internal]

theorem reset : Statement .reset := by simp [Statement, encode, Instr.internal]

end Laws.Carried

end Sys2Proof
end

