-- ==== Sys2Proof/Laws/Step.lean ====
section
/-!
SUPPORT. The step: which operation it runs, and runs of several steps.
-/
namespace Sys2Proof.Machine

open Sys2Proof

/-- The model's runs are the host's runs of the core. -/
theorem runSteps_eq_run (k : Nat) (s : State) : runSteps k s = Host.Core.run core k s := by
  induction k generalizing s with
  | zero => rfl
  | succ k ih =>
    simp only [runSteps, Host.Core.run]
    have hs : core.step s = step s := rfl
    rw [hs]
    cases step s with
    | next t => exact ih t
    | fault r => rfl
    | refused r => rfl

/-- A run of one more step. -/
theorem runSteps_succ {k : Nat} {s t : State} (h : step s = .next t) : runSteps (k + 1) s = runSteps k t := by
  simp [runSteps, h]

/-- A run is a run followed by a run. -/
theorem runSteps_add {j : Nat} {s t : State} (k : Nat) (h : runSteps j s = .next t) :
    runSteps (j + k) s = runSteps k t := by
  induction j generalizing s with
  | zero => simp [runSteps] at h; simp [h]
  | succ j ih =>
    rw [Nat.add_right_comm]
    simp only [runSteps] at h ⊢
    cases hs : step s with
    | next u => rw [hs] at h; exact ih h
    | fault r => rw [hs] at h; cases h
    | refused r => rw [hs] at h; cases h

/-- With nothing on the agenda the step is the sequencer's. -/
theorem step_empty {s : State} (h : s.agenda = []) : step s = blockStep s := by
  simp [step, machineStep, h]

/-- With a turn on the agenda, and not waiting on a running block, the step is that turn. -/
theorem step_turn {s : State} {t : Turn} {rest : List Turn} (h : s.agenda = t :: rest)
    (hw : t ≠ .wait ∨ s.running = false) : step s = takeTurn t { s with agenda := rest } := by
  unfold step machineStep
  rw [h]
  rcases hw with hw | hw <;> simp [hw]

/-- A wait stays on the agenda while the block runs. -/
theorem step_wait_running {s : State} {rest : List Turn} (h : s.agenda = .wait :: rest) (hr : s.running = true) :
    step s = blockStep s := by
  simp [step, machineStep, h, hr]

/-- The block's step in each state of the sequencer. -/
theorem blockStep_hdr {s : State} (h : s.st = .hdr) : blockStep s = exec .hdrStep s := by simp [blockStep, h]

theorem blockStep_fetch {s : State} (h : s.st = .fetch) : blockStep s = exec .fetchStep s := by simp [blockStep, h]

theorem blockStep_emit {s : State} (h : s.st = .emit) : blockStep s = exec .emitStep s := by simp [blockStep, h]

theorem blockStep_idle {s : State} (h : s.st = .idle) : blockStep s = .next s := by simp [blockStep, h]

theorem blockStep_fault {s : State} (h : s.st = .fault) : blockStep s = .next s := by simp [blockStep, h]

/-- Everything the block's own step can do when it answers a next state. -/
theorem blockStep_cases {s t : State} (h : blockStep s = .next t) :
    (t = s ∧ (s.st = .idle ∨ s.st = .fault)) ∨
    (s.fetchReady ∧ ∃ v, s.src[s.scur]? = some v ∧
      t = (s.advanceCursor.takePlaneByte v).closeRecord) ∨
    (s.fetchReady ∧ s.src.length ≤ s.scur ∧ t = s.raiseFault .bankUnderrun) ∨
    (s.emitReady ∧ ∃ A B, allValues s.cha = some A ∧ allValues s.chb = some B ∧ t = s.emitTile A B) ∨
    (s.hdrReady ∧ ∃ v, s.src[s.scur]? = some v ∧
      t = (s.advanceCursor.takeHeaderByte v).closeHeader) ∨
    (s.hdrReady ∧ s.src.length ≤ s.scur ∧ t = s.raiseFault .hdrUnderrun) := by
  cases hst : s.st with
  | idle => rw [blockStep_idle hst] at h; cases h; simp
  | fault => rw [blockStep_fault hst] at h; cases h; simp
  | hdr =>
    rw [blockStep_hdr hst] at h
    simp only [exec, execHdrStep] at h
    split at h
    · rename_i hr
      split at h
      · rename_i v s1 hn
        obtain ⟨hv, rfl⟩ := State.streamNext_eq_some.1 hn
        cases h
        exact .inr <| .inr <| .inr <| .inr <| .inl ⟨hr, v, hv, rfl⟩
      · rename_i hn
        cases h
        exact .inr <| .inr <| .inr <| .inr <| .inr ⟨hr, State.streamNext_eq_none.1 hn, rfl⟩
    · cases h
  | fetch =>
    rw [blockStep_fetch hst] at h
    simp only [exec, execFetchStep] at h
    split at h
    · rename_i hr
      split at h
      · rename_i v s1 hn
        obtain ⟨hv, rfl⟩ := State.streamNext_eq_some.1 hn
        cases h
        exact .inr <| .inl ⟨hr, v, hv, rfl⟩
      · rename_i hn
        cases h
        exact .inr <| .inr <| .inl ⟨hr, State.streamNext_eq_none.1 hn, rfl⟩
    · cases h
  | emit =>
    rw [blockStep_emit hst] at h
    simp only [exec, execEmitStep] at h
    split at h
    · rename_i hr
      split at h
      · rename_i A B hA hB
        cases h
        exact .inr <| .inr <| .inr <| .inl ⟨hr, A, B, hA, hB, rfl⟩
      · cases h
    · cases h

/-- Everything an access can do when it answers a next state. -/
theorem access_cases {a : Access} {s t : State} (h : runEncoded (.access a) s = .next t) :
    t = s ∨ (∃ d, t = s.deliver d) ∨ t = s.refuseAction ∨ (s.st = .idle ∧ t = s.startReadHeader) ∨
    (s.st = .idle ∧ t = s.startDecodeBank) ∨ (s.st = .idle ∧ ∃ P, t = { s with pal := P }) := by
  have hcmd : ∀ w, exec (decodeCmd w) s = .next t → t = s ∨ t = s.refuseAction ∨ (s.st = .idle ∧ t = s.startReadHeader) ∨
      (s.st = .idle ∧ t = s.startDecodeBank) := by
    intro w h
    have hr : ∀ {u : State}, (Host.Outcome.next s.refuseAction : Answer) = .next u → u = s.refuseAction := fun h => by
      cases h; rfl
    unfold decodeCmd at h
    split at h
    · cases h; exact .inl rfl
    split at h
    · simp only [exec, execReadHeader] at h
      split at h <;> cases h <;> simp_all
    split at h
    · simp only [exec, execDecodeBank] at h
      split at h <;> cases h <;> simp_all
    all_goals refine .inr (.inl ?_)
    iterate 6
      split at h
      · exact hr h
    exact hr h
  cases a with
  | write number byte colour =>
    simp only [runEncoded, decode, decodeAccess] at h
    split_ifs at h
    · rcases hcmd byte h with h | h | h | h <;> simp_all
    · simp only [exec, execLdpal] at h
      split at h
      · cases h; exact .inr (.inr (.inr (.inr (.inr ⟨‹_›, _, rfl⟩))))
      · cases h; simp
    · cases h; simp
  | read number =>
    refine .inr (.inl ?_)
    simp only [runEncoded, decode, decodeAccess] at h
    split_ifs at h <;> cases h <;> exact ⟨_, rfl⟩
  | readPixel address =>
    refine .inr (.inl ?_)
    simp only [runEncoded, decode, decodeAccess] at h
    split_ifs at h <;> cases h
    exact ⟨_, rfl⟩

/-- Everything the record grain can do when it answers a next state. -/
theorem recordStep_cases {s t : State} (h : recordStep s = .next t) :
    blockStep s = .next t ∨
    (s.fetchReady ∧ s.bc = 0 ∧ t = s.fetchBytes 16) ∨
    (s.fetchReady ∧ s.bc = 0 ∧ ∃ A B, t = { s with
      cha := holding A, chb := holding B, scur := s.scur + 16, bc := 16, st := .emit
      wire := some (.tile (tdecode A B s.pal)) }) ∨
    (s.st = .hdr ∧ s.bc = 0 ∧ ∃ v p c, t = { s with
      sig := holding v, prg := some p, chr := some c, scur := s.scur + 6, hdrv := true, bc := 0, st := .idle }) := by
  unfold recordStep at h
  split at h
  · split at h
    · simp only [runEncoded, decode] at h
      split_ifs at h
      · simp only [exec, execTile] at h
        split at h
        · rename_i hr
          cases h
          exact .inr (.inr (.inl ⟨hr.1, hr.2, _, _, rfl⟩))
        · cases h
      · cases h
    · simp only [exec, execTfetch] at h
      split at h
      · rename_i hr
        cases h
        exact .inr (.inl ⟨hr.1, hr.2, rfl⟩)
      · cases h
  · split at h
    · rename_i hs
      split at h
      · simp only [runEncoded, decode] at h
        split_ifs at h
        · simp only [exec, execHdr] at h
          rw [if_pos hs] at h
          cases h
          exact .inr (.inr (.inr ⟨hs.1, hs.2, _, _, _, rfl⟩))
        · cases h
      · exact .inl (by rw [blockStep_hdr hs.1]; exact h)
    · exact .inl h

/-- Everything the comparison of the signature can do when it answers a next state. -/
theorem compareSignature_cases {s t : State} (h : compareSignature s = .next t) : ∃ w, t = { s with wire := w } := by
  unfold compareSignature at h
  split at h
  · simp only [runEncoded, decode] at h
    split_ifs at h
    · cases h; exact ⟨_, rfl⟩
    · cases h
  · cases h; exact ⟨_, rfl⟩

/-- Everything a step can do when it answers a next state: the block's own step (the agenda empty, or waiting), or the
first turn of the agenda, taken on the state `u` without it. -/
theorem step_cases {s t : State} (h : step s = .next t) :
    blockStep s = .next t ∨
    ∃ x rest u, s.agenda = x :: rest ∧ u = { s with agenda := rest } ∧
      (t = u ∨ (∃ d, t = u.deliver d) ∨ t = u.refuseAction ∨ (u.st = .idle ∧ t = u.startReadHeader) ∨
        (u.st = .idle ∧ t = u.startDecodeBank) ∨ (u.st = .idle ∧ ∃ P, t = { u with pal := P }) ∨
        (x = .reset ∧ t = u.resetBlock) ∨ (u.st = .idle ∧ ∃ offset, t = { u with scur := offset }) ∨
        (∃ w, t = { u with wire := w }) ∨ blockStep u = .next t ∨
        (u.fetchReady ∧ u.bc = 0 ∧ t = u.fetchBytes 16) ∨
        (u.fetchReady ∧ u.bc = 0 ∧ ∃ A B, t = { u with
          cha := holding A, chb := holding B, scur := u.scur + 16, bc := 16, st := .emit
          wire := some (.tile (tdecode A B u.pal)) }) ∨
        (u.st = .hdr ∧ u.bc = 0 ∧ ∃ v p c, t = { u with
          sig := holding v, prg := some p, chr := some c, scur := u.scur + 6, hdrv := true, bc := 0, st := .idle })) := by
  unfold step machineStep at h
  split at h
  · exact .inl h
  · rename_i x rest ha
    split at h
    · exact .inl h
    · refine .inr ⟨x, rest, _, ha, rfl, ?_⟩
      cases x with
      | access a =>
        rcases access_cases h with h | h | h | h | h | h
        · exact .inl h
        · exact .inr (.inl h)
        · exact .inr (.inr (.inl h))
        · exact .inr (.inr (.inr (.inl h)))
        · exact .inr (.inr (.inr (.inr (.inl h))))
        · exact .inr (.inr (.inr (.inr (.inr (.inl h)))))
      | reset => cases h; simp
      | seek offset =>
        simp only [takeTurn, seek] at h
        split at h
        · cases h; exact .inr (.inr (.inr (.inr (.inr (.inr (.inr (.inl ⟨‹_›, _, rfl⟩)))))))
        · cases h
      | wait => cases h; exact .inl rfl
      | block => exact .inr (.inr (.inr (.inr (.inr (.inr (.inr (.inr (.inr (.inl h)))))))))
      | record =>
        rcases recordStep_cases h with h | h | h | h
        · exact .inr (.inr (.inr (.inr (.inr (.inr (.inr (.inr (.inr (.inl h)))))))))
        · exact .inr (.inr (.inr (.inr (.inr (.inr (.inr (.inr (.inr (.inr (.inl h))))))))))
        · exact .inr (.inr (.inr (.inr (.inr (.inr (.inr (.inr (.inr (.inr (.inr (.inl h)))))))))))
        · exact .inr (.inr (.inr (.inr (.inr (.inr (.inr (.inr (.inr (.inr (.inr (.inr h)))))))))))
      | compare =>
        exact .inr (.inr (.inr (.inr (.inr (.inr (.inr (.inr (.inl (compareSignature_cases h)))))))))

/-- The block's own step answers a next state wherever the rule of its sequencer state applies. -/
theorem blockStep_next {s : State} (hf : s.st = .fetch → s.fetchReady) (hh : s.st = .hdr → s.hdrReady)
    (he : s.st = .emit → s.emitReady ∧ (∀ r : Fin 8, s.cha[r].isSome) ∧ ∀ r : Fin 8, s.chb[r].isSome) :
    ∃ t, blockStep s = .next t := by
  cases hst : s.st with
  | idle => exact ⟨s, blockStep_idle hst⟩
  | fault => exact ⟨s, blockStep_fault hst⟩
  | hdr =>
    rw [blockStep_hdr hst]
    simp only [exec, execHdrStep]
    rw [if_pos (hh hst)]
    split <;> exact ⟨_, rfl⟩
  | fetch =>
    rw [blockStep_fetch hst]
    simp only [exec, execFetchStep]
    rw [if_pos (hf hst)]
    split <;> exact ⟨_, rfl⟩
  | emit =>
    obtain ⟨hr, ha, hb⟩ := he hst
    obtain ⟨A, hA⟩ := allValues_isSome ha
    obtain ⟨B, hB⟩ := allValues_isSome hb
    rw [blockStep_emit hst]
    simp only [exec, execEmitStep]
    rw [if_pos hr, hA, hB]
    exact ⟨_, rfl⟩

/-- An access answers a next state unless it is a read of an address that does not exist (43_control_commands.md R164). -/
theorem access_next {a : Access} (h : ∀ n, a = .readPixel n → n < 32768) (s : State) :
    ∃ t, runEncoded (.access a) s = .next t := by
  cases a with
  | write number byte colour =>
    simp only [runEncoded, decode, decodeAccess]
    split_ifs
    · unfold decodeCmd
      split_ifs <;> simp only [exec, execReadHeader, execDecodeBank] <;> (try split) <;> exact ⟨_, rfl⟩
    · simp only [exec, execLdpal]; split <;> exact ⟨_, rfl⟩
    · exact ⟨_, rfl⟩
  | read number =>
    simp only [runEncoded, decode, decodeAccess]
    split_ifs <;> exact ⟨_, rfl⟩
  | readPixel n =>
    simp only [runEncoded, decode, decodeAccess]
    rw [if_pos (h n rfl)]
    exact ⟨_, rfl⟩

end Sys2Proof.Machine
end

