-- ==== Sys2Proof/Tests/Slice0.lean ====
section
/-!
SUPPORT. The model's own tests. Expected values are the spec's: the words of 30_encoding.md and opcode_table.json, the examples
and vectors V1 to V40 and S1 to S9 of its worked examples, or a calculation by hand from the rule that is named. Then a
witness for the hypotheses of every statement of Certificates/Slice0/Obligations.lean that has any.
-/
namespace Sys2Proof.Tests

open Sys2Proof Sys2Proof.Machine

/-! ### Helpers -/

/-- A field of the next state. -/
def after {α : Type} (f : State → α) : Answer → Option α
  | .next s => some (f s)
  | .fault _ => none
  | .refused _ => none

/-- The reset state with a stream, the cursor at its start. -/
def start (bytes : List Byte) : State := { State.reset with src := bytes, scur := 0 }

/-- A bank decode that waits for byte `bc` of tile `tn`. -/
def fetching (bytes : List Byte) (tn : BitVec 10) (bc : BitVec 5) : State :=
  { start bytes with
    st := .fetch, tn := tn, bc := bc, cha := Vector.replicate 8 (some 0x11), chb := Vector.replicate 8 (some 0x22) }

/-- A bank decode with all bytes of tile `tn` read. -/
def emitting (tn : BitVec 10) (a b : Byte) : State :=
  { start [] with st := .emit, tn := tn, bc := 16, cha := Vector.replicate 8 (some a), chb := Vector.replicate 8 (some b) }

/-- A header read that waits for byte `bc`. -/
def heading (bytes : List Byte) (bc : BitVec 5) : State := { start bytes with st := .hdr, bc := bc }

/-- A completed header read. -/
def headed (bytes : Vector Byte 4) (prg chr : Byte) : State :=
  { start [] with sig := holding bytes, prg := some prg, chr := some chr, hdrv := true }

/-- A bank fault, STATUS 0x87. -/
def faulted : State := (start []).raiseFault .bankUnderrun

/-- The record of V4. -/
def record4 : List Byte :=
  [0x41, 0xC2, 0x44, 0x48, 0x10, 0x20, 0x40, 0x80, 0x01, 0x02, 0x04, 0x08, 0x16, 0x21, 0x42, 0x87]

/-- The planes of V4. -/
def planeA4 : Plane := #v[0x41, 0xC2, 0x44, 0x48, 0x10, 0x20, 0x40, 0x80]

def planeB4 : Plane := #v[0x01, 0x02, 0x04, 0x08, 0x16, 0x21, 0x42, 0x87]

/-- The eight indices of a row. -/
def indices (a b : Byte) : List Nat := (List.finRange 8).map fun c => (pixidx a b c).toNat

/-! ### Well-formedness -/

/-- TPLACE takes a tile index 0 to 511 (41 R120). -/
theorem test_wf_tplace (t : Tile) :
    (Instr.tplace 512 t).wellFormed = false ∧ (Instr.tplace 511 t).wellFormed = true := ⟨rfl, rfl⟩

/-- The operand of IS_VALID_SIGNATURE is 4 bytes (42 R142). -/
theorem test_wf_signature : (Instr.isValidSignature [0x4E, 0x45, 0x53]).wellFormed = false ∧
    (Instr.isValidSignature [0x4E, 0x45, 0x53, 0x1A, 0]).wellFormed = false ∧
    (Instr.isValidSignature [0x4E, 0x45, 0x53, 0x1A]).wellFormed = true := by decide

/-! ### Decoding: words written out from the spec's encodings -/

/-- Format CMD, 30 R76: 0b00000000, 0b00000001, 0b00000010, 0b00000011. -/
theorem test_decode_cmd : decodeTableWord 8 0b00000000 = some .nop ∧ decodeTableWord 8 0b00000001 = some .readHeader ∧
    decodeTableWord 8 0b00000010 = some .decodeBank ∧ decodeTableWord 8 0b00000011 = some .reserved03 := ⟨rfl, rfl, rfl, rfl⟩

/-- Format CMD, the reserved rows of opcode_table.json: the fixed high bits, then the free bits. -/
theorem test_decode_reserved : decodeTableWord 8 0b00000110 = some (.reserved04to07 0b10) ∧
    decodeTableWord 8 0b00001101 = some (.reserved08to0F 0b101) ∧
    decodeTableWord 8 0b00010010 = some (.reserved10to1F 0b0010) ∧
    decodeTableWord 8 0b00101001 = some (.reserved20to3F 0b01001) ∧
    decodeTableWord 8 0b01011010 = some (.reserved40to7F 0b011010) ∧
    decodeTableWord 8 0b11111111 = some (.reserved80toFF 0b1111111) := ⟨rfl, rfl, rfl, rfl, rfl, rfl⟩

/-- Format PALW, 10 R27: registers 4 and 7 are PAL0 and PAL3; register 8 is none. -/
theorem test_decode_palw (v : Color) : decode (.access (.write 0b00000100 0 v)) = .ok (.ldpal 0b00 v) ∧
    decode (.access (.write 0b00000111 0 v)) = .ok (.ldpal 0b11 v) ∧
    decode (.access (.write 0b00001000 0 v)) = .error (.noRegisterWrite 8) := ⟨rfl, rfl, rfl⟩

/-- Format REGRD, 10 R27: registers 1, 2, 3, 5, 10, 12, 13, 14. -/
theorem test_decode_regrd : decode (.access (.read 0b0001)) = .ok .rdStatus ∧ decode (.access (.read 0b0010)) = .ok .rdTn ∧
    decode (.access (.read 0b0011)) = .ok .rdBc ∧ decode (.access (.read 0b0101)) = .ok (.rdPal 0b01) ∧
    decode (.access (.read 0b1010)) = .ok (.rdSig 0b10) ∧ decode (.access (.read 0b1100)) = .ok .rdPrg ∧
    decode (.access (.read 0b1101)) = .ok .rdChr ∧ decode (.access (.read 0b1110)) = .ok .rdSigok :=
  ⟨rfl, rfl, rfl, rfl, rfl, rfl, rfl, rfl⟩

/-- Registers 0 and 15 have no read (10 R27). -/
theorem test_decode_no_read : decode (.access (.read 0)) = .error (.noRegisterRead 0) ∧
    decode (.access (.read 15)) = .error (.noRegisterRead 15) := ⟨rfl, rfl⟩

/-- Format CANVRD, 30 R78: pixel (45, 19) is row 00010011, column 0101101 (V11); address 32768 does not exist. -/
theorem test_decode_canvrd : decodeTableWord 16 0b0000100110101101 = some (.rdpix (0b00010011#8 ++ 0b0101101#7)) ∧
    decodeTableWord 16 0b1000000000000000 = none := ⟨rfl, rfl⟩

/-- Format TILE, 30 R71: the record of V4, channel A first. -/
theorem test_decode_tile : decode (.tile record4) = .ok (.tile planeA4 planeB4) ∧
    decodeTableWord 128 0x41C2444810204080_0102040816214287 = some (.tile planeA4 planeB4) := ⟨rfl, rfl⟩

/-- Format HDR, 30 R74: 4E 45 53 1A 02 01. -/
theorem test_decode_hdr : decodeTableWord 48 0x4E45531A_02_01 = some (.hdr #v[0x4E, 0x45, 0x53, 0x1A] 0x02 0x01) := rfl

/-- Format SIG4: the four bytes, first byte first. -/
theorem test_decode_sig4 : decodeTableWord 32 0x4E45531A = some (.isValidSignature [0x4E, 0x45, 0x53, 0x1A]) := rfl

/-- A record of another length is none (30 R70). -/
theorem test_decode_lengths : decode (.tile (List.replicate 15 0)) = .error (.recordLength 15) ∧
    decode (.hdr (List.replicate 7 0)) = .error (.recordLength 7) ∧ decode (.sig4 []) = .error (.recordLength 0) :=
  ⟨rfl, rfl, rfl⟩

/-- What is placed for a table word is what the next step runs: a command, a record, a signature. -/
theorem test_place_word : after State.st (step (State.reset.withFetchWord 8 0x01)) = some .hdr ∧
    after State.chb (step (State.reset.withFetchWord 128 0x41C2444810204080_0102040816214287)) = some (holding planeB4) ∧
    after State.chr (step (State.reset.withFetchWord 48 0x4E45531A_02_01)) = some (some 0x01) ∧
    after State.wire (step (State.reset.withFetchWord 32 0x4E45531A)) = some (some (.bits1 1)) := ⟨rfl, rfl, rfl, rfl⟩

/-! ### Reset -/

/-- STATUS is 0x00 after reset (V31). -/
theorem test_reset_status : State.reset.status = 0x00 := rfl

/-- RESET from FETCH with `TN` = 5, `BC` = 15 (V40): the cursor stays. -/
theorem test_reset_from_fetch : after State.status (exec .reset { fetching record4 5 15 with scur := 95 }) = some 0x00 ∧
    after State.tn (exec .reset { fetching record4 5 15 with scur := 95 }) = some 0 ∧
    after State.scur (exec .reset { fetching record4 5 15 with scur := 95 }) = some 95 := ⟨rfl, rfl, rfl⟩

/-- RESET from FAULT (V18). -/
theorem test_reset_from_fault : after State.status (exec .reset faulted.refuseAction) = some 0x00 := rfl

/-! ### Commands (V30) -/

theorem test_nop_in_fault : after State.status (exec .nop faulted) = some 0x87 := rfl

theorem test_read_header_idle : after State.status (exec .readHeader { start [] with cvv := true }) = some 0x11 := rfl

theorem test_read_header_in_fault : after State.status (exec .readHeader faulted) = some 0xA7 := rfl

theorem test_decode_bank_idle : after State.status (exec .decodeBank (headed #v[0, 0, 0, 0] 1 1)) = some 0x0A := rfl

theorem test_decode_bank_in_fetch : after State.status (exec .decodeBank (fetching [] 0 0)) = some 0x22 := rfl

theorem test_reserved_03 : after State.status (exec .reserved03 (start [])) = some 0x20 := rfl

theorem test_reserved_04 : after State.status (exec (.reserved04to07 0) (start [])) = some 0x20 := rfl

theorem test_reserved_08 : after State.status (exec (.reserved08to0F 7) (start [])) = some 0x20 := rfl

theorem test_reserved_10 : after State.status (exec (.reserved10to1F 0) faulted) = some 0xA7 := rfl

theorem test_reserved_20 : after State.status (exec (.reserved20to3F 0) (fetching [] 0 0)) = some 0x22 := rfl

theorem test_reserved_40 : after State.status (exec (.reserved40to7F 0) (heading [] 0)) = some 0x21 := rfl

theorem test_reserved_ff : after State.status (exec (.reserved80toFF 0x7F) (start [])) = some 0x20 := rfl

theorem test_ldpal_idle (v : Color) : after State.pal (exec (.ldpal 1 v) (start [])) =
    some #v[Config.defaultColour 0, v, Config.defaultColour 2, Config.defaultColour 3] := rfl

theorem test_ldpal_in_fetch (v : Color) : after State.pal (exec (.ldpal 1 v) (fetching [] 0 0)) = some State.reset.pal ∧
    after State.status (exec (.ldpal 1 v) (fetching [] 0 0)) = some 0x22 := ⟨rfl, rfl⟩

/-- A write to registers 1 and 15 sets CERR only. -/
theorem test_write_read_only : ∀ n ∈ ([1, 15] : List Byte),
    after State.status (step { start [] with agenda := [.access (.write n 0 (Config.defaultColour 0))] }) = some 0x20 := by
  decide

/-! ### Reads (V31, V20) -/

/-- All fields of STATUS at once: CAUSE 2, CERR, CVV, HDRV, ST FAULT, by 10 R27 0b10_1_1_1_111. -/
theorem test_rd_status : after State.rdata (exec .rdStatus { faulted with cerr := true, cvv := true, hdrv := true }) =
    some (some (.bits8 0b10111111)) := rfl

theorem test_rd_tn : after State.rdata (exec .rdTn (fetching [] 511 15)) = some (some (.bits10 511)) := rfl

theorem test_rd_bc : after State.rdata (exec .rdBc (fetching [] 511 15)) = some (some (.bits5 15)) := rfl

theorem test_rd_pal : after State.rdata (exec (.rdPal 2) State.reset) = some (some (.colour (Config.defaultColour 2))) := rfl

theorem test_rd_sig : after State.rdata (exec (.rdSig 3) (headed #v[0x4E, 0x45, 0x53, 0x1A] 2 0)) =
    some (some (.bits8 0x1A)) := rfl

/-- A header register that a read in progress has filled is not shown (10 R21). -/
theorem test_rd_sig_while_hdr : after State.rdata (exec (.rdSig 0) { heading [] 4 with sig := holding #v[1, 2, 3, 4] }) =
    some none := rfl

theorem test_rd_prg : after State.rdata (exec .rdPrg (headed #v[0x4E, 0x45, 0x53, 0x1A] 2 0)) = some (some (.bits8 2)) := rfl

/-- After reset: no value, the run marked, CERR still 0. -/
theorem test_rd_prg_reset : after State.rdata (exec .rdPrg State.reset) = some none ∧
    after State.marked (exec .rdPrg State.reset) = some true ∧ after State.cerr (exec .rdPrg State.reset) = some false :=
  ⟨rfl, rfl, rfl⟩

theorem test_rd_chr : after State.rdata (exec .rdChr (headed #v[0x4E, 0x45, 0x53, 0x1A] 2 0)) = some (some (.bits8 0)) := rfl

theorem test_rd_sigok : after State.rdata (exec .rdSigok (headed #v[0x4E, 0x45, 0x53, 0x1A] 2 0)) =
    some (some (.bits1 1)) := rfl

theorem test_rd_sigok_wrong : after State.rdata (exec .rdSigok (headed #v[0x4E, 0x45, 0x53, 0x1B] 1 1)) =
    some (some (.bits1 0)) := rfl

theorem test_rdpix (v : Color) : after State.rdata (exec (.rdpix 32767) { start [] with cvv := true, canvas := [(32767, v)] }) =
    some (some (.colour v)) := rfl

theorem test_rdpix_reset : after State.rdata (exec (.rdpix 0) State.reset) = some none ∧
    after State.marked (exec (.rdpix 0) State.reset) = some true := ⟨rfl, rfl⟩

/-! ### Tile decoder -/

/-- V1. -/
theorem test_pixidx : indices 0x80 0x01 = [1, 0, 0, 0, 0, 0, 0, 2] ∧ indices 0x1B 0xE4 = [2, 2, 2, 1, 1, 2, 1, 1] := by decide

/-- V1, V2: the same row by bits and by masks. -/
theorem test_mask_row : indices 0xF0 0x3C = [1, 1, 3, 3, 2, 2, 0, 0] ∧ maskRow 0xF0 0x3C = [1, 1, 3, 3, 2, 2, 0, 0] := by decide

/-- V3. -/
theorem test_lut (c0 c1 c2 c3 : Color) : after State.wire (exec (.lut 2) { start [] with pal := #v[c0, c1, c2, c3] }) =
    some (some (.colour c2)) := rfl

/-- V4: the planes after TFETCH. -/
theorem test_tfetch : after State.cha (exec .tfetch (fetching record4 0 0)) = some (holding planeA4) ∧
    after State.chb (exec .tfetch (fetching record4 0 0)) = some (holding planeB4) := by decide

/-- V4: the position after TFETCH. -/
theorem test_tfetch_position : after State.bc (exec .tfetch (fetching record4 0 0)) = some 16 ∧
    after State.st (exec .tfetch (fetching record4 0 0)) = some .emit ∧
    after State.scur (exec .tfetch (fetching record4 0 0)) = some 16 := by decide

/-- V6: rows 0, 4 and 7 of the index grid. -/
theorem test_tile_index : (tileIndex planeA4 planeB4)[0] = #v[0, 1, 0, 0, 0, 0, 0, 3] ∧
    (tileIndex planeA4 planeB4)[4] = #v[0, 0, 0, 3, 0, 2, 2, 0] ∧
    (tileIndex planeA4 planeB4)[7] = #v[3, 0, 0, 0, 0, 2, 2, 2] := by decide

/-- TDECODE, row 4 of V6, in colours. -/
theorem test_tdecode (c0 c1 c2 c3 : Color) :
    (tdecode planeA4 planeB4 #v[c0, c1, c2, c3])[4] = #v[c0, c0, c0, c3, c0, c2, c2, c0] := rfl

/-- A TDECODE whose planes hold no value stops by name. -/
theorem test_tdecode_no_value : exec .tdecode State.reset = .refused (.noValue "TDECODE") := rfl

/-- V7: the encode of 30 R82 gives the planes 55 AA ... and 33 66 CC 99 .... -/
theorem test_encode_grid :
    let g : Grid := Vector.ofFn fun r => Vector.ofFn fun c => BitVec.ofNat 2 (r.val + c.val)
    gridPlaneA g = #v[0x55, 0xAA, 0x55, 0xAA, 0x55, 0xAA, 0x55, 0xAA] ∧
    gridPlaneB g = #v[0x33, 0x66, 0xCC, 0x99, 0x33, 0x66, 0xCC, 0x99] := by decide

/-- V8. -/
theorem test_packed_row : packedRow 0xF0 0x3C = 0x5FA0 := by decide

/-- The TILE record's colours are those of TDECODE (row 0 of V6), and the record is complete. -/
theorem test_tile : after State.bc (exec (.tile planeA4 planeB4) (fetching record4 0 0)) = some 16 ∧
    after State.wire (exec (.tile planeA4 planeB4) (fetching record4 0 0)) =
      some (some (.tile (tdecode planeA4 planeB4 State.reset.pal))) := ⟨rfl, rfl⟩

/-! ### Raster composer -/

/-- V10, V11. -/
theorem test_pixel_address : pixelAddress 1 0 0 = 8 ∧ pixelAddress 16 0 0 = 1024 ∧ pixelAddress 37 3 5 = 2477 ∧
    pixelAddress 255 7 7 = 16383 ∧ pixelAddress 511 7 7 = 32767 := by decide

/-- V10: the first row of tile 37 starts at 2088, the last row ends at 2991. -/
theorem test_tplace (row : Vector Color 8) :
    (placeRow 37 0 row []).map Prod.fst = [2088, 2089, 2090, 2091, 2092, 2093, 2094, 2095] ∧
    (placeRow 37 7 row []).map Prod.fst = [2984, 2985, 2986, 2987, 2988, 2989, 2990, 2991] := ⟨rfl, rfl⟩

/-- The last byte of channel A, then the first of channel B (41 R124). -/
theorem test_fetch_step : after (fun s => s.cha[7]) (exec .fetchStep (fetching [0xAB] 5 7)) = some (some 0xAB) ∧
    after (fun s => s.chb[0]) (exec .fetchStep (fetching [0xAB] 5 8)) = some (some 0xAB) := by decide

/-- V14, and the fault of S9. -/
theorem test_fetch_step_ends : after State.st (exec .fetchStep (fetching [0xAB] 5 15)) = some .emit ∧
    after State.status (exec .fetchStep (fetching [] 0 0)) = some 0x87 := by decide

/-- V14: tile 5 becomes 6; V13: tile 511 ends the decode with STATUS 0x10. -/
theorem test_emit_step : after State.tn (exec .emitStep (emitting 5 0xFF 0)) = some 6 ∧
    after State.st (exec .emitStep (emitting 5 0xFF 0)) = some .fetch ∧
    after State.status (exec .emitStep (emitting 511 0xFF 0)) = some 0x10 := ⟨rfl, rfl, rfl⟩

/-- V5: channel A alone is index 1; tile 1 starts at address 8. -/
theorem test_emit_step_colour : after (fun s => s.canvas.read 8) (exec .emitStep (emitting 1 0xFF 0)) =
    some (some (Config.defaultColour 1)) := rfl

/-! ### Header validator -/

/-- The sixth byte (V20). -/
theorem test_hdr_step : after State.chr (exec .hdrStep (heading [0xFF] 5)) = some (some 0xFF) ∧
    after State.status (exec .hdrStep (heading [0xFF] 5)) = some 0x08 ∧
    after State.bc (exec .hdrStep (heading [0xFF] 5)) = some 0 := by decide

/-- The fourth and fifth bytes, and the fault (V20). -/
theorem test_hdr_step_middle : after (fun s => s.sig[3]) (exec .hdrStep (heading [0x1A] 3)) = some (some 0x1A) ∧
    after State.prg (exec .hdrStep (heading [0x02] 4)) = some (some 0x02) ∧
    after State.status (exec .hdrStep (heading [] 3)) = some 0x47 := by decide

/-- A whole HDR record (V20, row 2). -/
theorem test_hdr : after State.status (exec (.hdr #v[0x4E, 0x45, 0x53, 0x1A] 2 0) (heading [] 0)) = some 0x08 ∧
    after State.prg (exec (.hdr #v[0x4E, 0x45, 0x53, 0x1A] 2 0) (heading [] 0)) = some (some 2) := ⟨rfl, rfl⟩

/-- S1: the signature, and one byte changed. -/
theorem test_signature : after State.wire (exec (.isValidSignature [0x4E, 0x45, 0x53, 0x1A]) (start [])) =
      some (some (.bits1 1)) ∧
    after State.wire (exec (.isValidSignature [0x4E, 0x45, 0x53, 0x1B]) (start [])) = some (some (.bits1 0)) := ⟨rfl, rfl⟩

/-- V21. -/
theorem test_bank_offset : bankOffset 0 0 = 16 ∧ bankOffset 1 1 = 24592 ∧ bankOffset 255 254 = 6258704 := by decide

/-! ### Witnesses: for every statement with hypotheses, states and operands that meet them all -/

theorem witness_encode_then_decode : (Instr.rdpix 32767).wellFormed = true ∧
    encode (.rdpix 32767) = some (.access (.readPixel 32767)) := ⟨rfl, rfl⟩

theorem witness_reserved_bytes : 0x03 ≤ (0x03 : Byte).toNat ∧ 0x03 ≤ (0xFF : Byte).toNat := by decide

/-- Both ends of each range of register numbers, and numbers on both sides. -/
theorem witness_register_ranges : (4 ≤ (4 : Byte).toNat ∧ (4 : Byte).toNat ≤ 7) ∧ (4 ≤ (7 : Byte).toNat ∧ (7 : Byte).toNat ≤ 7) ∧
    (8 ≤ (8 : Byte).toNat ∧ (8 : Byte).toNat ≤ 11) ∧ (8 ≤ (11 : Byte).toNat ∧ (11 : Byte).toNat ≤ 11) ∧
    ¬ (4 ≤ (3 : Byte).toNat ∧ (3 : Byte).toNat ≤ 7) ∧ ¬ (8 ≤ (15 : Byte).toNat ∧ (15 : Byte).toNat ≤ 11) := by decide

/-- The two ends of `k < 8`. -/
theorem witness_packed_row : (0 : Nat) < 8 ∧ (7 : Nat) < 8 := by decide

theorem witness_tdecode : ∀ r : Fin 8, (emitting 0 0x0F 0xF0).cha[r] = some (Vector.replicate 8 (0x0F : Byte))[r] ∧
    (emitting 0 0x0F 0xF0).chb[r] = some (Vector.replicate 8 (0xF0 : Byte))[r] := by decide

/-- Exactly 16 bytes, at tile 511. -/
theorem witness_tfetch_fills : (fetching record4 511 0).st = .fetch ∧ (fetching record4 511 0).bc = 0 ∧
    (fetching record4 511 0).tn.toNat ≤ 511 ∧ (fetching record4 511 0).scur + 16 ≤ (fetching record4 511 0).src.length := by
  decide

/-- 15 bytes, and none. -/
theorem witness_tfetch_short : (fetching (record4.take 15) 0 0).st = .fetch ∧ (fetching (record4.take 15) 0 0).bc = 0 ∧
    (fetching (record4.take 15) 0 0).tn.toNat ≤ 511 ∧
    (fetching (record4.take 15) 0 0).src.length < (fetching (record4.take 15) 0 0).scur + 16 ∧
    (fetching [] 0 0).src.length < (fetching [] 0 0).scur + 16 := by decide

theorem witness_sixteen_fetch_steps : (fetching record4 0 0).agenda = [] ∧ (fetching record4 0 0).st = .fetch ∧
    (fetching record4 0 0).bc = 0 ∧ (fetching record4 0 0).tn.toNat ≤ 511 := by decide

theorem witness_tile_record : (fetching record4 0 0).st = .fetch ∧ (fetching record4 0 0).bc = 0 ∧
    (fetching record4 0 0).tn.toNat ≤ 511 ∧
    ∀ r : Fin 8, (fetching record4 0 0).src[(fetching record4 0 0).scur + r.val]? = some planeA4[r] ∧
      (fetching record4 0 0).src[(fetching record4 0 0).scur + 8 + r.val]? = some planeB4[r] := by decide

theorem witness_tplace : (emitting 0 0 0).st = .emit ∧ (0 : BitVec 10).toNat ≤ 511 ∧ (511 : BitVec 10).toNat ≤ 511 := by decide

/-- An address outside the rectangle of tile 37: its left neighbour. -/
theorem witness_tplace_outside : ∀ r c : Fin 8, 2087 ≠ (((37 : BitVec 10).toNat / 16) * 8 + r.val) * 128 +
    (((37 : BitVec 10).toNat % 16) * 8 + c.val) := by decide

theorem witness_every_address : 0 < 32768 ∧ 32767 < 32768 := by decide

/-- `BC` = 0, 7, 8 and 15. -/
theorem witness_fetch_step : ∀ bc ∈ ([0, 7, 8, 15] : List (BitVec 5)), (fetching [0xAB] 511 bc).st = .fetch ∧
    (fetching [0xAB] 511 bc).bc.toNat ≤ 15 ∧ (fetching [0xAB] 511 bc).tn.toNat ≤ 511 ∧
    (fetching [0xAB] 511 bc).src[(fetching [0xAB] 511 bc).scur]? = some 0xAB := by decide

theorem witness_fetch_step_at_end : ∀ bc ∈ ([0, 15] : List (BitVec 5)), (fetching [] 511 bc).st = .fetch ∧
    (fetching [] 511 bc).bc.toNat ≤ 15 ∧ (fetching [] 511 bc).tn.toNat ≤ 511 ∧
    (fetching [] 511 bc).src.length ≤ (fetching [] 511 bc).scur := by decide

/-- Tiles 510 and 511. -/
theorem witness_emit_step : ∀ tn ∈ ([510, 511] : List (BitVec 10)), (emitting tn 1 2).st = .emit ∧ (emitting tn 1 2).bc = 16 ∧
    (emitting tn 1 2).tn.toNat ≤ 511 ∧ ∀ r : Fin 8, (emitting tn 1 2).cha[r] = some (Vector.replicate 8 (1 : Byte))[r] ∧
      (emitting tn 1 2).chb[r] = some (Vector.replicate 8 (2 : Byte))[r] := by decide

theorem length_bank (n : Nat) : 0 + n ≤ (List.replicate n (0x55 : Byte)).length := by
  rw [List.length_replicate, Nat.zero_add]

theorem length_shifted_bank (n : Nat) : 1 + n ≤ (0x00 :: List.replicate n (0x55 : Byte)).length := by
  rw [List.length_cons, List.length_replicate, Nat.add_comm]

theorem same_bytes (bytes : List Byte) : (bytes.drop 0).take 8192 = ((0x00 :: bytes).drop 1).take 8192 := rfl

/-- Exactly one bank: the hypotheses of DecodeBankCompletes and BankImageInClosedForm. -/
theorem witness_decode_bank : (start (List.replicate 8192 0x55)).agenda = [] ∧ (start (List.replicate 8192 0x55)).st = .idle ∧
    (start (List.replicate 8192 0x55)).cause = .none ∧
    (start (List.replicate 8192 0x55)).scur + 8192 ≤ (start (List.replicate 8192 0x55)).src.length :=
  ⟨rfl, rfl, rfl, length_bank 8192⟩

/-- Its two clauses' ranges at their ends: tiles 0 and 511, bytes 0, 15 and 16; pixels (0, 0) and (127, 255). -/
theorem witness_bank_ranges : ((0 : Nat) < 512 ∧ (511 : Nat) < 512 ∧ (0 : Nat) ≤ 16 ∧ (15 : Nat) ≤ 16 ∧ (16 : Nat) ≤ 16) ∧
    (0 : Nat) < 128 ∧ (127 : Nat) < 128 ∧ (0 : Nat) < 256 ∧ (255 : Nat) < 256 := by decide

/-- The two ends of tile 511's record in a bank. -/
theorem witness_last_record : 8176 + (0 : Fin 8).val < 8192 ∧ 8184 + (7 : Fin 8).val < 8192 := by decide

/-- No byte (S9). -/
theorem witness_shortfall : (start []).agenda = [] ∧ (start []).st = .idle ∧
    (start []).src.length - (start []).scur < 8192 ∧ (start []).scur ≤ (start []).src.length :=
  ⟨rfl, rfl, by decide, by decide⟩

/-- One byte short (P3). -/
theorem witness_shortfall_of_one (bytes : List Byte) (h : bytes.length = 8191) : (start bytes).agenda = [] ∧
    (start bytes).st = .idle ∧ (start bytes).src.length - (start bytes).scur < 8192 := by
  refine ⟨rfl, rfl, ?_⟩
  show bytes.length - 0 < 8192
  omega

/-- A stream of that length. -/
theorem witness_one_byte_short : (List.replicate 8191 (0x55 : Byte)).length = 8191 := List.length_replicate

/-- The same bank at two places of two streams, before and after a header read. -/
theorem witness_image_depends :
    let s := start (List.replicate 8192 0x55)
    let s' := { headed #v[0, 0, 0, 0] 1 1 with src := 0x00 :: List.replicate 8192 0x55, scur := 1 }
    s.agenda = [] ∧ s'.agenda = [] ∧ s.st = .idle ∧ s'.st = .idle ∧ s.scur + 8192 ≤ s.src.length ∧
    s'.scur + 8192 ≤ s'.src.length ∧ (s.src.drop s.scur).take 8192 = (s'.src.drop s'.scur).take 8192 ∧ s.pal = s'.pal :=
  ⟨rfl, rfl, rfl, rfl, length_bank 8192, length_shifted_bank 8192, same_bytes _, rfl⟩

theorem witness_small_steps : (start [1, 2, 3]).agenda = [] ∧ (start [1, 2, 3]).st = .idle := by decide

/-- `BC` = 0, 3, 4 and 5. -/
theorem witness_hdr_step : ∀ bc ∈ ([0, 3, 4, 5] : List (BitVec 5)), (heading [0xAB] bc).st = .hdr ∧
    (heading [0xAB] bc).bc.toNat ≤ 5 ∧ (heading [0xAB] bc).src[(heading [0xAB] bc).scur]? = some 0xAB := by decide

theorem witness_hdr_step_at_end : ∀ bc ∈ ([0, 5] : List (BitVec 5)), (heading [] bc).st = .hdr ∧
    (heading [] bc).bc.toNat ≤ 5 ∧ (heading [] bc).src.length ≤ (heading [] bc).scur := by decide

/-- Exactly 6 bytes. -/
theorem witness_read_header : (start [0x4E, 0x45, 0x53, 0x1A, 1, 1]).agenda = [] ∧
    (start [0x4E, 0x45, 0x53, 0x1A, 1, 1]).st = .idle ∧
    (start [0x4E, 0x45, 0x53, 0x1A, 1, 1]).scur + 6 ≤ (start [0x4E, 0x45, 0x53, 0x1A, 1, 1]).src.length := by decide

/-- No byte, and 5 bytes. -/
theorem witness_short_header : ((start []).agenda = [] ∧ (start []).st = .idle ∧
      (start []).src.length - (start []).scur < 6) ∧
    (start [0x4E, 0x45, 0x53, 0x1A, 2]).src.length - (start [0x4E, 0x45, 0x53, 0x1A, 2]).scur < 6 := by decide

theorem witness_hdr_record :
    let s := heading [0x4E, 0x45, 0x53, 0x1A, 2, 1] 0
    s.st = .hdr ∧ s.bc = 0 ∧ s.agenda = [] ∧
    (∀ k : Fin 4, s.src[s.scur + k.val]? = some (#v[0x4E, 0x45, 0x53, 0x1A] : Vector Byte 4)[k]) ∧
    s.src[s.scur + 4]? = some 2 ∧ s.src[s.scur + 5]? = some 1 := by decide

theorem witness_signature : (headed #v[0x4E, 0x45, 0x53, 0x1A] 1 1).hdrv = true ∧
    ∀ k : Fin 4, (headed #v[0x4E, 0x45, 0x53, 0x1A] 1 1).sig[k] = some (#v[0x4E, 0x45, 0x53, 0x1A] : Vector Byte 4)[k] := by
  decide

/-- The header of S7. -/
theorem witness_wrong_signature :
    let s := start [0, 0, 0, 0, 1, 1]
    s.agenda = [] ∧ s.st = .idle ∧ s.cause = .none ∧ s.scur + 6 ≤ s.src.length ∧
    (s.src.drop s.scur).take 4 ≠ [0x4E, 0x45, 0x53, 0x1A] := by decide

theorem witness_command_write (v : Color) :
    ({ start [] with agenda := [.access (.write 0x00 0x02 v)] } : State).agenda = .access (.write 0x00 0x02 v) :: [] := rfl

/-- Both states of the accepted and the refused commands. -/
theorem witness_idle_and_busy : (start []).st = .idle ∧ (fetching [] 0 0).st ≠ .idle := by decide

theorem witness_header_reads : (headed #v[1, 2, 3, 4] 5 6).hdrv = true ∧
    (∀ k : Fin 4, (headed #v[1, 2, 3, 4] 5 6).sig[k] = some (#v[1, 2, 3, 4] : Vector Byte 4)[k]) ∧
    (headed #v[1, 2, 3, 4] 5 6).prg = some 5 ∧ (headed #v[1, 2, 3, 4] 5 6).chr = some 6 := by decide

/-- The first and the last pixel. -/
theorem witness_rdpix (v : Color) : ({ start [] with cvv := true, canvas := [(0, v), (32767, v)] } : State).cvv = true ∧
    Memory.read [(0, v), (32767, v)] (0 : BitVec 15).toNat = some v ∧
    Memory.read [(0, v), (32767, v)] (32767 : BitVec 15).toNat = some v := ⟨rfl, rfl, rfl⟩

theorem witness_no_value_reads : State.reset.hdrv = false ∧ State.reset.cvv = false ∧
    ({ start [] with agenda := [.access (.read 15), .access (.read 255)] } : State).agenda =
      .access (.read 15) :: [.access (.read 255)] ∧
    15 ≤ (15 : Byte).toNat ∧ 15 ≤ (255 : Byte).toNat ∧
    ({ start [] with agenda := [.access (.read 0)] } : State).agenda = .access (.read 0) :: [] ∧ (0 : Byte).toNat = 0 :=
  ⟨rfl, rfl, rfl, by decide, by decide, rfl, rfl⟩

/-- A read of the write-only CMD has no value and marks the run (log 6). -/
theorem test_read_cmd : after State.rdata (step { start [] with agenda := [.access (.read 0)] }) = some none ∧
    after State.marked (step { start [] with agenda := [.access (.read 0)] }) = some true := ⟨rfl, rfl⟩

/-- Register numbers 1, 3, 8 and 255. -/
theorem witness_refused_writes (v : Color) : ∀ n ∈ ([1, 3, 8, 255] : List Byte),
    ({ start [] with agenda := [.access (.write n 0 v)] } : State).agenda = .access (.write n 0 v) :: [] ∧
    n.toNat ≠ 0 ∧ ¬ (4 ≤ n.toNat ∧ n.toNat ≤ 7) := by
  intro n hn
  refine ⟨rfl, ?_⟩
  revert n
  decide

/-- A wait in FAULT, and a reset. -/
theorem witness_fault_left : faulted.st = .fault ∧
    (step { faulted with agenda := [.wait] } = .next faulted) ∧
    (step { faulted with agenda := [.reset] } = .next faulted.resetBlock) := ⟨rfl, rfl, rfl⟩

/-- A state of a bank decode, tile 0 with half its record read, meets the invariants. -/
theorem witness_invariants : (fetching [0xAB] 0 8).Inv where
  hdr := nofun
  fetch := fun _ => by decide
  emit := nofun
  valid := nofun
  idle := nofun
  cause := by decide
  fault := nofun
  planes := nofun
  planesSoFar := fun _ => by decide
  image := by simp [fetching, start, State.reset]
  noPartialImage := fun _ _ _ => rfl
  header := nofun
  headerSoFar := nofun
  form := Memory.wf_nil

/-- That state has a next state; also the premise of NoStepWritesTheStream. -/
theorem witness_step : after State.bc (step (fetching [0xAB] 0 8)) = some 9 := by decide

/-- A block step that moves the cursor, and one that does not. -/
theorem witness_cursor : (fetching [0xAB] 0 8).agenda = [] ∧ after State.scur (step (fetching [0xAB] 0 8)) = some 1 ∧
    (emitting 0 0 0).agenda = [] ∧ after State.scur (step (emitting 0 0 0)) = some 0 := ⟨rfl, rfl, rfl, rfl⟩

/-- A busy block, CERR set, and a turn that is no reset. -/
theorem witness_busy_turn (v : Color) :
    let s : State := { fetching [] 0 0 with agenda := [.access (.write 4 0 v)], cerr := true }
    s.st ≠ .idle ∧ s.cerr = true ∧ (∀ rest, s.agenda ≠ .reset :: rest) ∧ after State.cerr (step s) = some true :=
  ⟨nofun, rfl, by simp, rfl⟩

/-- A valid image during a header read. -/
theorem witness_valid_image :
    let s : State := { heading [0x4E] 0 with cvv := true }
    (s.st = .emit → s.cvv = false) ∧ s.cvv = true ∧ after State.cvv (step s) = some true := ⟨nofun, rfl, rfl⟩

/-- CVV rises at tile 511, HDRV at the sixth byte. -/
theorem witness_flags_rise : (emitting 511 0 0).cvv = false ∧ after State.cvv (step (emitting 511 0 0)) = some true ∧
    (heading [7] 5).hdrv = false ∧ after State.hdrv (step (heading [7] 5)) = some true := ⟨rfl, rfl, rfl, rfl⟩

/-- FETCH with a byte, FETCH at the end, EMIT: BankDecodeIgnoresTheHeader and PositionAdvancesWithTheCursor. -/
theorem witness_bank_steps : ((fetching [0xAB] 511 15).agenda = [] ∧ (fetching [0xAB] 511 15).st = .fetch ∧
      (fetching [0xAB] 511 15).scur < (fetching [0xAB] 511 15).src.length ∧
      after State.position (step (fetching [0xAB] 511 15)) = some 8192) ∧
    ((fetching [] 0 0).src.length ≤ (fetching [] 0 0).scur ∧ after State.position (step (fetching [] 0 0)) = some 0) ∧
    (emitting 511 0 0).st = .emit ∧ after State.position (step (emitting 511 0 0)) = some 8192 :=
  ⟨⟨rfl, rfl, by decide, rfl⟩, ⟨by decide, rfl⟩, rfl, rfl⟩

theorem witness_decoded_access : ({ start [] with agenda := [.access (.read 1)] } : State).agenda = .access (.read 1) :: [] ∧
    decode (.access (.read 1)) = .ok .rdStatus := ⟨rfl, rfl⟩

/-- Each state of the sequencer with an empty agenda, and each turn of the host. -/
theorem witness_turns : ((start []).agenda = [] ∧ (start []).st = .idle) ∧ (heading [] 0).st = .hdr ∧
    (fetching [] 0 0).st = .fetch ∧ (emitting 0 0 0).st = .emit ∧ faulted.st = .fault ∧
    ({ start [] with agenda := [.seek 16, .wait, .reset] } : State).agenda = .seek 16 :: [.wait, .reset] ∧
    after State.scur (step { start [] with agenda := [.seek 16, .wait, .reset] }) = some 16 ∧
    step { fetching [] 0 0 with agenda := [.seek 16] } = .refused .seekWhileBusy := ⟨⟨rfl, rfl⟩, rfl, rfl, rfl, rfl, rfl, rfl, rfl⟩

/-- A block turn in each state of the sequencer. -/
theorem witness_block_turn :
    after State.st (step { heading [] 0 with agenda := [.block] }) = some .fault ∧
    after State.bc (step { fetching [0xAB] 0 8 with agenda := [.block] }) = some 9 ∧
    after State.tn (step { emitting 5 0 0 with agenda := [.block] }) = some 6 ∧
    step { start [] with agenda := [.block] } = .next (start []) ∧
    step { faulted with agenda := [.block] } = .next faulted := ⟨rfl, rfl, rfl, rfl, rfl⟩

/-- A comparison with a header, without HDRV, and with HDRV and a signature byte that holds no value. -/
theorem witness_compare_turn :
    let s : State := { headed #v[0x4E, 0x45, 0x53, 0x1A] 1 1 with agenda := [.compare] }
    let u : State := { start [] with agenda := [.compare] }
    s.agenda = .compare :: [] ∧ s.hdrv = true ∧
    (∀ k : Fin 4, s.sig[k] = some (#v[0x4E, 0x45, 0x53, 0x1A] : Vector Byte 4)[k]) ∧
    after State.wire (step s) = some (some (.bits1 1)) ∧ u.hdrv = false ∧ after State.wire (step u) = some none ∧
    ({ u with hdrv := true } : State).sig[(3 : Fin 4)] = none := ⟨rfl, rfl, by decide, rfl, rfl, rfl, rfl⟩

/-- An access while the block is not IDLE has a next state: a refused command in FETCH, a read in FAULT. -/
theorem witness_access_while_busy :
    (fetching [] 0 0).st ≠ .idle ∧
    after State.cerr (step { fetching [] 0 0 with agenda := [.access (.write 0 2 0)] }) = some true ∧
    faulted.st ≠ .idle ∧
    after State.rdata (step { faulted with agenda := [.access (.read 1)] }) = some (some (.bits8 0x87)) :=
  ⟨by decide, rfl, by decide, rfl⟩

/-- A record turn inside a record and where none starts: the block's own step. -/
theorem witness_record_turn_elsewhere :
    ((fetching [0xAB] 0 1).bc ≠ 0 ∧ after State.bc (step { fetching [0xAB] 0 1 with agenda := [.record] }) = some 2) ∧
    ((heading [0xAB] 5).bc ≠ 0 ∧ after State.hdrv (step { heading [0xAB] 5 with agenda := [.record] }) = some true) ∧
    after State.tn (step { emitting 5 0 0 with agenda := [.record] }) = some 6 ∧
    step { start [] with agenda := [.record] } = .next (start []) := ⟨⟨by decide, rfl⟩, ⟨by decide, rfl⟩, rfl, rfl⟩

/-- A record turn on a whole tile, on 15 bytes of one, on a whole header, and on 5 bytes of one. -/
theorem witness_record_turn :
    let s : State := { fetching record4 0 0 with agenda := [.record] }
    let h : State := { heading [0x4E, 0x45, 0x53, 0x1A, 2, 1] 0 with agenda := [.record] }
    s.agenda = .record :: [] ∧ s.bc = 0 ∧ s.st = .fetch ∧ h.bc = 0 ∧ h.st = .hdr ∧
    (∀ r : Fin 8, s.src[s.scur + r.val]? = some planeA4[r] ∧ s.src[s.scur + 8 + r.val]? = some planeB4[r]) ∧
    (∀ k : Fin 4, h.src[h.scur + k.val]? = some (#v[0x4E, 0x45, 0x53, 0x1A] : Vector Byte 4)[k]) ∧
    h.src[h.scur + 4]? = some 2 ∧ h.src[h.scur + 5]? = some 1 ∧
    (record4.take 15).length < 0 + 16 ∧ ([0x4E, 0x45, 0x53, 0x1A, 2] : List Byte).length < 0 + 6 := by decide

/-- Each clause of EveryStopHasItsPlaceAndItsName that names a place in `exec`; the turns are in `witness_turns`, a record of a
wrong length in `test_decode_lengths`. -/
theorem witness_stops : 32768 ≤ 32768 ∧
    ¬ ((start []).st = .fetch ∧ (start []).bc.toNat ≤ 15 ∧ (start []).tn.toNat ≤ 511) ∧
    ¬ ((start []).st = .emit ∧ (start []).bc = 16 ∧ (start []).tn.toNat ≤ 511) ∧
    ¬ ((start []).st = .hdr ∧ (start []).bc.toNat ≤ 5) ∧
    ¬ ((fetching record4 0 1).st = .fetch ∧ (fetching record4 0 1).bc = 0 ∧ (fetching record4 0 1).tn.toNat ≤ 511) ∧
    ¬ ((heading [] 1).st = .hdr ∧ (heading [] 1).bc = 0) ∧
    ¬ ((emitting 0 0 0).st = .emit ∧ (512 : BitVec 10).toNat ≤ 511) ∧
    (∃ r : Fin 8, State.reset.cha[r] = none ∨ State.reset.chb[r] = none) := by decide

/-- EMIT with one plane byte that holds no value. -/
theorem witness_emit_no_value :
    let s : State := { emitting 0 0 0 with chb := Vector.replicate 8 none }
    (∃ r : Fin 8, s.cha[r] = none ∨ s.chb[r] = none) ∧ s.st = .emit ∧ s.bc = 16 ∧ s.tn.toNat ≤ 511 := by decide

end Sys2Proof.Tests
end

section
/-!
PROOFS, the step by cases with a name each: `step_cases` as an inductive predicate, so that a proof about every turn names
the turns it has something to say of.
-/
namespace Sys2Proof.Machine

open Sys2Proof

/-- What a turn of the agenda, taken on `u`, may lead to (43_control_commands.md R155, R170). -/
inductive TurnEffect (u : State) : Turn → State → Prop where
  | nothing (x : Turn) : TurnEffect u x u
  | deliver (x : Turn) (d : Option Datum) : TurnEffect u x (u.deliver d)
  | refuse (x : Turn) : TurnEffect u x u.refuseAction
  | startReadHeader (x : Turn) (hst : u.st = .idle) : TurnEffect u x u.startReadHeader
  | startDecodeBank (x : Turn) (hst : u.st = .idle) : TurnEffect u x u.startDecodeBank
  | palette (x : Turn) (hst : u.st = .idle) (P : Palette) : TurnEffect u x { u with pal := P }
  | reset : TurnEffect u .reset u.resetBlock
  | seek (x : Turn) (hst : u.st = .idle) (offset : Nat) : TurnEffect u x { u with scur := offset }
  | wire (x : Turn) (w : Option Datum) : TurnEffect u x { u with wire := w }
  | block (x : Turn) {t : State} (hblock : blockStep u = .next t) : TurnEffect u x t
  | tfetch (x : Turn) (hr : u.fetchReady) (hbc : u.bc = 0) : TurnEffect u x (u.fetchBytes 16)
  | tileRecord (x : Turn) (hr : u.fetchReady) (hbc : u.bc = 0) (A B : Plane) : TurnEffect u x { u with
      cha := holding A, chb := holding B, scur := u.scur + 16, bc := 16, st := .emit
      wire := some (.tile (tdecode A B u.pal)) }
  | headerRecord (x : Turn) (hst : u.st = .hdr) (hbc : u.bc = 0) (v : Vector Byte 4) (p c : Byte) : TurnEffect u x { u with
      sig := holding v, prg := some p, chr := some c, scur := u.scur + 6, hdrv := true, bc := 0, st := .idle }

/-- A step that answers a next state is the block's own, or has the effect of the first turn of the agenda. -/
theorem step_effect {s t : State} (h : step s = .next t) :
    blockStep s = .next t ∨ ∃ x rest, s.agenda = x :: rest ∧ TurnEffect { s with agenda := rest } x t := by
  rcases step_cases h with hb | ⟨x, rest, u, hx, rfl, hcases⟩
  · exact .inl hb
  refine .inr ⟨x, rest, hx, ?_⟩
  rcases hcases with rfl | ⟨d, rfl⟩ | rfl | ⟨hst, rfl⟩ | ⟨hst, rfl⟩ | ⟨hst, P, rfl⟩ | ⟨rfl, rfl⟩ | ⟨hst, offset, rfl⟩ |
    ⟨w, rfl⟩ | hb | ⟨hr, hbc, rfl⟩ | ⟨hr, hbc, A, B, rfl⟩ | ⟨hst, hbc, v, p, c, rfl⟩
  · exact .nothing x
  · exact .deliver x d
  · exact .refuse x
  · exact .startReadHeader x hst
  · exact .startDecodeBank x hst
  · exact .palette x hst P
  · exact .reset
  · exact .seek x hst offset
  · exact .wire x w
  · exact .block x hb
  · exact .tfetch x hr hbc
  · exact .tileRecord x hr hbc A B
  · exact .headerRecord x hst hbc v p c

end Sys2Proof.Machine
end

section
/-!
PROOFS, 10_state.md R32: every step keeps the invariants (O48). The invariants are first cut by sequencer state: what they
come to in each of the five, then what each operation establishes.
-/
namespace Sys2Proof.Machine

open Sys2Proof

/-! ### The parts the invariants are made of -/

/-- The first `BC` plane bytes hold a value: the conclusion of `State.Inv.planesSoFar`. -/
def State.PlanesRead (s : State) : Prop :=
  (∀ r : Fin 8, r.val < s.bc.toNat → s.cha[r].isSome) ∧ ∀ r : Fin 8, 8 + r.val < s.bc.toNat → s.chb[r].isSome

/-- The first `BC` header bytes hold a value: the conclusion of `State.Inv.headerSoFar`. -/
def State.HeaderRead (s : State) : Prop :=
  (∀ k : Fin 4, k.val < s.bc.toNat → s.sig[k].isSome) ∧ (s.bc.toNat = 5 → s.prg.isSome)

/-- All six header bytes hold a value: the conclusion of `State.Inv.header`. -/
def State.HeaderWhole (s : State) : Prop :=
  (∀ k : Fin 4, s.sig[k].isSome) ∧ s.prg.isSome ∧ s.chr.isSome

/-- Exactly the pixels of tiles 0 to `TN - 1` hold a value: the conclusion of `State.Inv.image`. -/
def State.TilesPlaced (s : State) : Prop :=
  ∀ a < 32768, ((s.canvas.read a).isSome ↔ tileOfAddress a < s.tn.toNat)

/-- The canvas is a whole image or empty, as `CVV` says: `State.Inv.valid` and `State.Inv.noPartialImage` together. -/
def State.ImageWholeOrNone (s : State) : Prop :=
  (s.cvv = true → s.tn = 512 ∧ ∀ a < 32768, (s.canvas.read a).isSome) ∧ (s.cvv = false → s.canvas = [])

theorem State.Inv.cause_eq_none {s : State} (h : s.Inv) (hst : s.st ≠ .fault) : s.cause = .none :=
  not_not.1 fun hc => hst (h.cause.1 hc)

theorem State.Inv.imageWholeOrNone {s : State} (h : s.Inv) (hf : s.st ≠ .fetch) (he : s.st ≠ .emit) :
    s.ImageWholeOrNone :=
  ⟨fun hv => ⟨(h.valid hv).1, (h.valid hv).2.2⟩, h.noPartialImage hf he⟩

/-! ### What establishes the invariants in each sequencer state -/

theorem State.Inv.of_idle {s : State} (hst : s.st = .idle) (hbc : s.bc = 0) (hcause : s.cause = .none)
    (himage : s.ImageWholeOrNone) (hheader : s.hdrv = true → s.HeaderWhole) (hform : Memory.wf s.canvas) : s.Inv where
  hdr := by simp [hst]
  fetch := by simp [hst]
  emit := by simp [hst]
  valid := fun hv => ⟨(himage.1 hv).1, .inl hst, (himage.1 hv).2⟩
  idle := fun _ => hbc
  cause := by simp [hst, hcause]
  fault := by simp [hst]
  planes := by simp [hst]
  planesSoFar := by simp [hst]
  image := by simp [hst]
  noPartialImage := fun _ _ => himage.2
  header := hheader
  headerSoFar := by simp [hst]
  form := hform

theorem State.Inv.of_hdr {s : State} (hst : s.st = .hdr) (hbc : s.bc.toNat ≤ 5) (hhdrv : s.hdrv = false)
    (hcause : s.cause = .none) (himage : s.ImageWholeOrNone) (hheader : s.HeaderRead)
    (hform : Memory.wf s.canvas) : s.Inv where
  hdr := fun _ => ⟨hbc, hhdrv⟩
  fetch := by simp [hst]
  emit := by simp [hst]
  valid := fun hv => ⟨(himage.1 hv).1, .inr hst, (himage.1 hv).2⟩
  idle := by simp [hst]
  cause := by simp [hst, hcause]
  fault := by simp [hst]
  planes := by simp [hst]
  planesSoFar := by simp [hst]
  image := by simp [hst]
  noPartialImage := fun _ _ => himage.2
  header := by simp [hhdrv]
  headerSoFar := fun _ => hheader
  form := hform

/-- A state of a bank decode, but for where `BC` may stand in FETCH and in EMIT. -/
structure State.Decoding (s : State) : Prop where
  tn : s.tn.toNat ≤ 511
  cvv : s.cvv = false
  cause : s.cause = .none
  planes : s.PlanesRead
  tiles : s.TilesPlaced
  header : s.hdrv = true → s.HeaderWhole
  form : Memory.wf s.canvas

theorem State.Inv.decoding {s : State} (h : s.Inv) (hst : s.st = .fetch ∨ s.st = .emit) : s.Decoding := by
  have hcause := h.cause_eq_none (by rcases hst with e | e <;> simp [e])
  have himage := h.image hst
  rcases hst with hst | hst
  · obtain ⟨htn, -, hcvv⟩ := h.fetch hst
    exact ⟨htn, hcvv, hcause, h.planesSoFar hst, himage, h.header, h.form⟩
  · obtain ⟨htn, -, hcvv⟩ := h.emit hst
    obtain ⟨ha, hb⟩ := h.planes hst
    exact ⟨htn, hcvv, hcause, ⟨fun r _ => ha r, fun r _ => hb r⟩, himage, h.header, h.form⟩

theorem State.Inv.of_fetch {s : State} (hst : s.st = .fetch) (hbc : s.bc.toNat ≤ 15) (h : s.Decoding) : s.Inv where
  hdr := by simp [hst]
  fetch := fun _ => ⟨h.tn, hbc, h.cvv⟩
  emit := by simp [hst]
  valid := by simp [h.cvv]
  idle := by simp [hst]
  cause := by simp [hst, h.cause]
  fault := by simp [hst]
  planes := by simp [hst]
  planesSoFar := fun _ => h.planes
  image := fun _ => h.tiles
  noPartialImage := by simp [hst]
  header := h.header
  headerSoFar := by simp [hst]
  form := h.form

theorem State.Inv.of_emit {s : State} (hst : s.st = .emit) (hbc : s.bc = 16) (h : s.Decoding) : s.Inv where
  hdr := by simp [hst]
  fetch := by simp [hst]
  emit := fun _ => ⟨h.tn, hbc, h.cvv⟩
  valid := by simp [h.cvv]
  idle := by simp [hst]
  cause := by simp [hst, h.cause]
  fault := by simp [hst]
  planes := fun _ => ⟨fun r => h.planes.1 r (by simp [hbc]; omega), fun r => h.planes.2 r (by simp [hbc]; omega)⟩
  planesSoFar := by simp [hst]
  image := fun _ => h.tiles
  noPartialImage := by simp [hst]
  header := h.header
  headerSoFar := by simp [hst]
  form := h.form

/-- Fault entry establishes the invariants from any state at all (60_exceptions.md R183). -/
theorem State.Inv.raiseFault {f : Cause} (hf : f ≠ .none) (s : State) : (s.raiseFault f).Inv where
  hdr := by simp
  fetch := by simp
  emit := by simp
  valid := by simp
  idle := by simp
  cause := by simp [hf]
  fault := by simp
  planes := by simp
  planesSoFar := by simp
  image := by simp
  noPartialImage := by simp
  header := by simp
  headerSoFar := by simp
  form := Memory.wf_nil

/-- The invariants speak of the block's registers but for `PAL` and `CERR`: the rest may be anything. -/
theorem State.Inv.of_frame {s t : State} (h : s.Inv)
    (e : t = { s with
      pal := t.pal, cerr := t.cerr, src := t.src, scur := t.scur, agenda := t.agenda, rdata := t.rdata
      wire := t.wire, marked := t.marked }) : t.Inv := by
  rw [e]
  exact { h with }

/-! ### Command starts and reset -/

theorem State.Inv.startReadHeader {s : State} (h : s.Inv) (hst : s.st = .idle) : s.startReadHeader.Inv :=
  .of_hdr rfl (by simp) rfl (h.cause_eq_none (by simp [hst])) (h.imageWholeOrNone (by simp [hst]) (by simp [hst]))
    (by simp [State.HeaderRead]) h.form

theorem State.Inv.startDecodeBank {s : State} (h : s.Inv) (hst : s.st = .idle) : s.startDecodeBank.Inv :=
  .of_fetch rfl (by simp)
    { tn := by simp
      cvv := rfl
      cause := h.cause_eq_none (by simp [hst])
      planes := by simp [State.PlanesRead]
      tiles := by simp [State.TilesPlaced]
      header := h.header
      form := Memory.wf_nil }

/-- Reset establishes the invariants from any state at all (70_reset_and_hazards.md R200). -/
theorem State.Inv.resetBlock (s : State) : s.resetBlock.Inv :=
  .of_idle rfl rfl rfl (by simp [State.ImageWholeOrNone]) (by simp) Memory.wf_nil

/-! ### Reading a tile record -/

/-- Storing a value at index `k` of a register array whose first `k` elements hold one leaves `k + 1` that do. -/
theorem isSome_setIfInBounds {α : Type} {n k : Nat} {w : Vector (Option α) n} (v : α)
    (h : ∀ i : Fin n, i.val < k → w[i].isSome) (i : Fin n) (hi : i.val < k + 1) :
    (w.setIfInBounds k (some v))[i].isSome := by
  simp only [Fin.getElem_fin, Vector.getElem_setIfInBounds]
  split
  · rfl
  · exact h i (by omega)

theorem State.PlanesRead.takePlaneByte {s : State} (v : Byte) (h : s.PlanesRead) (hbc : s.bc.toNat ≤ 15) :
    (s.takePlaneByte v).PlanesRead := by
  obtain ⟨ha, hb⟩ := h
  unfold State.PlanesRead
  rw [State.takePlaneByte_bc, toNat_bc_add_one (by omega), State.takePlaneByte_cha, State.takePlaneByte_chb]
  split
  · exact ⟨isSome_setIfInBounds v ha, fun r hr => by omega⟩
  · exact ⟨fun r _ => ha r (by omega), fun r hr =>
      isSome_setIfInBounds v (fun i hi => hb i (by omega)) r (by omega)⟩

theorem State.Decoding.takePlaneByte {s : State} (v : Byte) (h : s.Decoding) (hbc : s.bc.toNat ≤ 15) :
    (s.advanceCursor.takePlaneByte v).Decoding where
  tn := by simpa using h.tn
  cvv := by simpa using h.cvv
  cause := by simpa using h.cause
  planes := State.PlanesRead.takePlaneByte (s := s.advanceCursor) v h.planes hbc
  tiles := by simpa [State.TilesPlaced] using h.tiles
  header := by simpa [State.HeaderWhole] using h.header
  form := by simpa using h.form

/-- Closing the record leads to EMIT with 16 bytes read and stays in FETCH with fewer (41_raster_compose.md R124). -/
theorem State.Inv.closeRecord {s : State} (hst : s.st = .fetch) (hbc : s.bc.toNat ≤ 16) (h : s.Decoding) :
    s.closeRecord.Inv := by
  unfold State.closeRecord
  split
  · rename_i hlast
    exact .of_emit rfl hlast { h with }
  · rename_i hmore
    have : s.bc.toNat ≠ 16 := fun e => hmore (BitVec.eq_of_toNat_eq e)
    exact .of_fetch hst (by omega) h

/-- TFETCH, at any byte of the record: it ends in EMIT or in the fault (40_tile_decode.md R101). -/
theorem State.Inv.fetchBytes {n : Nat} {s : State} (hst : s.st = .fetch) (hbc : s.bc.toNat + n = 16) (h : s.Decoding) :
    (s.fetchBytes n).Inv := by
  induction n generalizing s with
  | zero => exact .closeRecord hst (by omega) h
  | succ n ih =>
    rcases Nat.lt_or_ge s.scur s.src.length with hs | hs
    · rw [State.fetchBytes_succ n (List.getElem?_eq_getElem hs)]
      refine ih (by simpa using hst) ?_ (h.takePlaneByte _ (by omega))
      rw [State.takePlaneByte_bc, State.advanceCursor_bc, toNat_bc_add_one (by omega)]
      omega
    · rw [State.fetchBytes_at_end n hs]
      exact .raiseFault (by simp) s

/-- A FETCH step with a byte there. -/
theorem State.Inv.fetchByte {s : State} (h : s.Inv) (hst : s.st = .fetch) (v : Byte) :
    (s.advanceCursor.takePlaneByte v).closeRecord.Inv := by
  have hbc : s.bc.toNat ≤ 15 := (h.fetch hst).2.1
  refine .closeRecord (by simpa using hst) ?_ ((h.decoding (.inl hst)).takePlaneByte v hbc)
  rw [State.takePlaneByte_bc, State.advanceCursor_bc, toNat_bc_add_one (by omega)]
  omega

/-- A TILE record taken whole (30_encoding.md R71). -/
theorem State.Inv.tileRecord {s : State} (h : s.Inv) (hst : s.st = .fetch) (A B : Plane) (scur : Nat)
    (wire : Option Datum) :
    State.Inv { s with cha := holding A, chb := holding B, scur := scur, bc := 16, st := .emit, wire := wire } :=
  .of_emit rfl rfl { h.decoding (.inl hst) with planes := by simp [State.PlanesRead, holding] }

/-! ### The EMIT step -/

/-- With tile `TN` placed the pixels of tiles 0 to `TN` hold a value, and no other does. -/
theorem placeTile_isSome_iff {n : Nat} {m : Memory} (h : ∀ a < 32768, ((m.read a).isSome ↔ tileOfAddress a < n))
    (t : Tile) (a : Nat) (ha : a < 32768) : (((placeTile n t m).read a).isSome ↔ tileOfAddress a < n + 1) := by
  rw [placeTile_read]
  split
  · simp; omega
  · rw [h a ha]; omega

/-- An EMIT step goes on with the next tile, or with tile 511 completes the image (41_raster_compose.md R125). -/
theorem State.Inv.emitTile {s : State} (h : s.Inv) (hst : s.st = .emit) (A B : Plane) : (s.emitTile A B).Inv := by
  have d := h.decoding (.inr hst)
  have htn : (s.tn + 1).toNat = s.tn.toNat + 1 := toNat_tn_add_one d.tn
  have hplaced := placeTile_isSome_iff d.tiles (tdecode A B s.pal)
  have hform := placeTile_wf (tdecode A B s.pal) d.form (Nat.lt_succ_of_le d.tn)
  have hcause : (s.emitTile A B).cause = .none := by simpa using d.cause
  have hheader : (s.emitTile A B).hdrv = true → (s.emitTile A B).HeaderWhole := by
    simpa [State.HeaderWhole] using d.header
  by_cases hlast : s.tn.toNat + 1 = 512
  · refine .of_idle (by simp [hlast]) (by simp) hcause ⟨fun _ => ⟨?_, fun a ha => ?_⟩, by simp [hlast]⟩ hheader
      (by simpa using hform)
    · rw [State.emitTile_tn]
      exact BitVec.eq_of_toNat_eq (htn.trans hlast)
    · rw [State.emitTile_canvas, hplaced a ha, hlast]
      exact tileOfAddress_lt ha
  · have htn' : s.tn.toNat ≤ 511 := d.tn
    exact .of_fetch (by simp [hlast]) (by simp)
      { tn := by rw [State.emitTile_tn]; omega
        cvv := by simpa [hlast] using d.cvv
        cause := hcause
        planes := by simp [State.PlanesRead]
        tiles := by
          unfold State.TilesPlaced
          rw [State.emitTile_tn, State.emitTile_canvas, htn]
          exact hplaced
        header := hheader
        form := by simpa using hform }

/-! ### Reading the header -/

theorem State.HeaderRead.takeHeaderByte {s : State} (v : Byte) (h : s.HeaderRead) (hbc : s.bc.toNat ≤ 5) :
    (s.takeHeaderByte v).HeaderRead := by
  obtain ⟨hsig, -⟩ := h
  unfold State.HeaderRead
  rw [State.takeHeaderByte_bc, toNat_bc_add_one (by omega), State.takeHeaderByte_sig, State.takeHeaderByte_prg]
  constructor
  · split
    · exact isSome_setIfInBounds v hsig
    · exact fun k _ => hsig k (by omega)
  · intro e
    simp [show s.bc.toNat = 4 by omega]

/-- The sixth byte makes the header whole. -/
theorem State.HeaderRead.headerWhole {s : State} (v : Byte) (h : s.HeaderRead) (hbc : s.bc.toNat = 5) :
    (s.takeHeaderByte v).HeaderWhole := by
  obtain ⟨hsig, hprg⟩ := h
  exact ⟨by simpa [hbc] using fun k : Fin 4 => hsig k (by omega), by simpa [hbc] using hprg hbc, by simp [hbc]⟩

/-- An HDR step with a byte there (42_header_validator.md R141). -/
theorem State.Inv.headerByte {s : State} (h : s.Inv) (hst : s.st = .hdr) (v : Byte) :
    (s.advanceCursor.takeHeaderByte v).closeHeader.Inv := by
  obtain ⟨hbc, hhdrv⟩ := h.hdr hst
  have hbc' : (s.bc + 1).toNat = s.bc.toNat + 1 := toNat_bc_add_one (by omega)
  have hcause := h.cause_eq_none (by simp [hst])
  have himage := h.imageWholeOrNone (by simp [hst]) (by simp [hst])
  have hheader : s.advanceCursor.HeaderRead := h.headerSoFar hst
  unfold State.closeHeader
  rw [State.takeHeaderByte_bc, State.advanceCursor_bc]
  split
  · rename_i hlast
    have h5 : s.bc.toNat = 5 := by
      have := congrArg BitVec.toNat hlast
      rw [hbc'] at this; simpa using this
    exact .of_idle rfl rfl (by simpa using hcause) (by simpa [State.ImageWholeOrNone] using himage)
      (fun _ => hheader.headerWhole v h5) (by simpa using h.form)
  · rename_i hmore
    have h5 : s.bc.toNat ≠ 5 := fun e => hmore (BitVec.eq_of_toNat_eq (by rw [hbc', e]; rfl))
    refine .of_hdr (by simpa using hst) ?_ (by simpa using hhdrv) (by simpa using hcause)
      (by simpa [State.ImageWholeOrNone] using himage) (hheader.takeHeaderByte v hbc) (by simpa using h.form)
    rw [State.takeHeaderByte_bc, State.advanceCursor_bc]
    omega

/-- An HDR record taken whole (30_encoding.md R74). -/
theorem State.Inv.headerRecord {s : State} (h : s.Inv) (hst : s.st = .hdr) (v : Vector Byte 4) (p c : Byte)
    (scur : Nat) :
    State.Inv { s with
      sig := holding v, prg := some p, chr := some c, scur := scur, hdrv := true, bc := 0, st := .idle } :=
  .of_idle rfl rfl (h.cause_eq_none (by simp [hst])) (h.imageWholeOrNone (by simp [hst]) (by simp [hst]))
    (fun _ => by simp [State.HeaderWhole, holding]) h.form

/-! ### The step -/

theorem State.Inv.blockStep {s t : State} (h : s.Inv) (hstep : blockStep s = .next t) : t.Inv := by
  rcases blockStep_cases hstep with
    ⟨rfl, -⟩ | ⟨hr, v, -, rfl⟩ | ⟨-, -, rfl⟩ | ⟨hr, A, B, -, -, rfl⟩ | ⟨hr, v, -, rfl⟩ | ⟨-, -, rfl⟩
  · exact h
  · exact h.fetchByte hr.1 v
  · exact .raiseFault (by simp) s
  · exact h.emitTile hr.1 A B
  · exact h.headerByte hr.1 v
  · exact .raiseFault (by simp) s

theorem State.Inv.turnEffect {x : Turn} {u t : State} (h : u.Inv) (he : TurnEffect u x t) : t.Inv := by
  cases he with
  | nothing => exact h
  | startReadHeader _ hst => exact h.startReadHeader hst
  | startDecodeBank _ hst => exact h.startDecodeBank hst
  | reset => exact .resetBlock u
  | block _ hblock => exact h.blockStep hblock
  | tfetch _ hr hbc => exact .fetchBytes hr.1 (by simp [hbc]) (h.decoding (.inl hr.1))
  | tileRecord _ hr _ A B => exact h.tileRecord hr.1 A B _ _
  | headerRecord _ hst _ v p c => exact h.headerRecord hst v p c _
  | deliver | refuse | palette | seek | wire => exact h.of_frame rfl

/-- Settles O48: each turn, and the block's own step, keeps the invariants. -/
theorem everyStepKeepsTheInvariants : Obligations.EveryStepKeepsTheInvariants := by
  intro s t h hstep
  rcases step_effect hstep with hb | ⟨x, rest, -, he⟩
  · exact h.blockStep hb
  · exact State.Inv.turnEffect (h.of_frame rfl) he

end Sys2Proof.Machine
end

section
/-!
PROOFS, 10_state.md: the register map (R27), the state after reset (R31, R32), and the single rules about CERR (R24), CVV and
HDRV (R19, R21, R26), the header registers in a bank decode (R23) and the position (R13).
-/
namespace Sys2Proof.Machine

open Sys2Proof

/-! ### The register map -/

/-- The mask of the palette rows picks register numbers 4 to 7. -/
theorem mask_eq_4_iff : ∀ n : Byte, n &&& 0xFC = 0x04 ↔ 4 ≤ n.toNat ∧ n.toNat ≤ 7 := by decide

/-- The mask of the signature rows picks register numbers 8 to 11. -/
theorem mask_eq_8_iff : ∀ n : Byte, n &&& 0xFC = 0x08 ↔ 8 ≤ n.toNat ∧ n.toNat ≤ 11 := by decide

/-- The two low bits of a number are its distance, modulo 4, from any base `4 * k` below it. -/
theorem extractLsb'_two_eq {n : Byte} {k : Nat} (h : 4 * k ≤ n.toNat) :
    n.extractLsb' 0 2 = BitVec.ofNat 2 (n.toNat - 4 * k) := by
  apply BitVec.eq_of_toNat_eq
  simp
  omega

theorem decode_write (number byte : Byte) (colour : Color) :
    decode (.access (.write number byte colour)) =
      (if number.toNat = 0 then .ok (decodeCmd byte)
       else if 4 ≤ number.toNat ∧ number.toNat ≤ 7 then .ok (.ldpal (BitVec.ofNat 2 (number.toNat - 4)) colour)
       else .error (.noRegisterWrite number)) := by
  have h0 : number = 0x00 ↔ number.toNat = 0 := BitVec.toNat_inj.symm
  simp only [decode, decodeAccess, h0, mask_eq_4_iff]
  refine if_congr Iff.rfl rfl ?_
  split
  · rw [extractLsb'_two_eq (k := 1) (by omega)]
  · rfl

/-- Settles O3. -/
theorem registerMapDecides : Obligations.RegisterMapDecides := by
  intro number byte colour
  refine ⟨decode_write number byte colour, ?_⟩
  have hnum : ∀ k : Byte, number = k ↔ number.toNat = k.toNat := fun k => BitVec.toNat_inj.symm
  simp only [decode, decodeAccess, hnum, mask_eq_4_iff, mask_eq_8_iff]
  refine if_congr Iff.rfl rfl <| if_congr Iff.rfl rfl <| if_congr Iff.rfl rfl ?_
  split
  · rw [extractLsb'_two_eq (k := 1) (by omega)]
  split
  · rw [extractLsb'_two_eq (k := 2) (by omega)]
  · rfl

/-! ### The reset state -/

/-- Settles O46. -/
theorem runStartsInTheResetState : Obligations.RunStartsInTheResetState := by
  have hplanes : ∀ r : Fin 8, State.reset.cha[r] = none ∧ State.reset.chb[r] = none := fun r => by simp [State.reset]
  have hpal : ∀ i : Fin 4, State.reset.pal[i] = Config.defaultColour i := fun i => by simp [State.reset]
  have hsig : ∀ k : Fin 4, State.reset.sig[k] = none := fun k => by simp [State.reset]
  exact ⟨rfl, rfl, rfl, hplanes, hpal, Memory.read_nil, rfl, hsig, rfl, rfl, rfl, rfl, rfl, rfl⟩

/-- Settles O47. -/
theorem resetMeetsTheInvariants : Obligations.ResetMeetsTheInvariants :=
  .of_idle rfl rfl rfl ⟨nofun, fun _ => rfl⟩ nofun State.reset_canvas_wf

/-! ### CERR -/

theorem blockStep_cerr {s t : State} (h : blockStep s = .next t) : t.cerr = s.cerr := by
  rcases blockStep_cases h with
    ⟨rfl, -⟩ | ⟨-, v, -, rfl⟩ | ⟨-, -, rfl⟩ | ⟨-, A, B, -, -, rfl⟩ | ⟨-, v, -, rfl⟩ | ⟨-, -, rfl⟩ <;> simp

/-- But for reset, a turn sets CERR (a refusal) or leaves it. -/
theorem TurnEffect.cerr {x : Turn} {u t : State} (h : TurnEffect u x t) (hx : x ≠ .reset) (hu : u.cerr = true) :
    t.cerr = true := by
  cases h
  case reset => exact absurd rfl hx
  case block hb => rw [blockStep_cerr hb, hu]
  case tfetch =>
    obtain ⟨-, -, hcerr, -⟩ := State.fetchBytes_frame 16 u
    rw [hcerr, hu]
  all_goals simp [hu]

/-- Settles O52. -/
theorem cerrIsSticky : Obligations.CerrIsSticky := by
  intro s t hcerr hreset hstep
  rcases step_effect hstep with hb | ⟨x, rest, hx, he⟩
  · rw [blockStep_cerr hb, hcerr]
  · exact he.cerr (fun e => hreset rest (e ▸ hx)) hcerr

/-! ### The canvas and CVV, the header result and HDRV -/

/-- What a step from `s` to `t` may do to the canvas and CVV: nothing, give both up, or be an EMIT step, in which CVV rises
only with tile 511. -/
def CanvasStep (s t : State) : Prop :=
  (t.canvas = s.canvas ∧ t.cvv = s.cvv) ∨ t.cvv = false ∨
  (s.st = .emit ∧ (t.cvv = s.cvv ∨ (s.tn.toNat = 511 ∧ t.st = .idle)))

/-- What a step from `s` to `t` may do to HDRV: nothing, clear it, or end a header read. -/
def HdrvStep (s t : State) : Prop := t.hdrv = s.hdrv ∨ t.hdrv = false ∨ (s.st = .hdr ∧ t.st = .idle)

theorem emitTile_canvasStep {s : State} (h : s.emitReady) (A B : Plane) : CanvasStep s (s.emitTile A B) := by
  refine .inr (.inr ⟨h.1, ?_⟩)
  by_cases hlast : s.tn.toNat + 1 = 512
  · exact .inr ⟨by omega, by simp [hlast]⟩
  · exact .inl (by simp [hlast])

theorem headerByte_hdrvStep {s : State} (h : s.hdrReady) (v : Byte) :
    HdrvStep s (s.advanceCursor.takeHeaderByte v).closeHeader := by
  simp only [HdrvStep, State.closeHeader_hdrv, State.closeHeader_st, State.takeHeaderByte_bc, State.advanceCursor_bc]
  by_cases hlast : s.bc + 1 = 6
  · exact .inr (.inr ⟨h.1, if_pos hlast⟩)
  · rw [if_neg hlast]
    exact .inl (by simp)

theorem blockStep_flags {s t : State} (h : blockStep s = .next t) : CanvasStep s t ∧ HdrvStep s t := by
  rcases blockStep_cases h with
    ⟨rfl, -⟩ | ⟨-, v, -, rfl⟩ | ⟨-, -, rfl⟩ | ⟨hr, A, B, -, -, rfl⟩ | ⟨hr, v, -, rfl⟩ | ⟨-, -, rfl⟩
  · exact ⟨.inl ⟨rfl, rfl⟩, .inl rfl⟩
  · exact ⟨.inl (by simp), .inl (by simp)⟩
  · exact ⟨.inr (.inl rfl), .inr (.inl rfl)⟩
  · exact ⟨emitTile_canvasStep hr A B, .inl (by simp)⟩
  · exact ⟨.inl (by simp), headerByte_hdrvStep hr v⟩
  · exact ⟨.inr (.inl rfl), .inr (.inl rfl)⟩

theorem fetchBytes_flags (n : Nat) (s : State) : CanvasStep s (s.fetchBytes n) ∧ HdrvStep s (s.fetchBytes n) := by
  rcases State.fetchBytes_cases n s with ⟨-, hcanvas, hcvv, hhdrv, -⟩ | ⟨u, hu⟩
  · exact ⟨.inl ⟨hcanvas, hcvv⟩, .inl hhdrv⟩
  · rw [hu]; exact ⟨.inr (.inl rfl), .inr (.inl rfl)⟩

theorem TurnEffect.flags {x : Turn} {u t : State} (h : TurnEffect u x t) : CanvasStep u t ∧ HdrvStep u t := by
  cases h
  case block hb => exact blockStep_flags hb
  case tfetch => exact fetchBytes_flags 16 u
  case headerRecord hst _ _ _ _ => exact ⟨.inl ⟨rfl, rfl⟩, .inr (.inr ⟨hst, rfl⟩)⟩
  all_goals simp [CanvasStep, HdrvStep]

theorem step_flags {s t : State} (h : step s = .next t) : CanvasStep s t ∧ HdrvStep s t := by
  rcases step_effect h with hb | ⟨x, rest, -, he⟩
  · exact blockStep_flags hb
  · exact he.flags

/-- Settles O53. -/
theorem validImageIsNotWritten : Obligations.ValidImageIsNotWritten := by
  intro s t hemit hs hstep ht
  rcases (step_flags hstep).1 with ⟨hcanvas, -⟩ | hcvv | ⟨hst, -⟩
  · exact hcanvas
  · simp [hcvv] at ht
  · simp [hemit hst] at hs

/-- Settles O54. -/
theorem validFlagsRiseOnlyAtCompletion : Obligations.ValidFlagsRiseOnlyAtCompletion := by
  intro s t hstep
  obtain ⟨hcanvas, hhdrv⟩ := step_flags hstep
  constructor
  · intro hs ht
    rcases hcanvas with ⟨-, hcvv⟩ | hcvv | ⟨hst, hcvv | ⟨htn, hidle⟩⟩
    · simp [hs, ht] at hcvv
    · simp [ht] at hcvv
    · simp [hs, ht] at hcvv
    · exact ⟨hst, htn, hidle⟩
  · intro hs ht
    rcases hhdrv with hhdrv | hhdrv | hend
    · simp [hs, ht] at hhdrv
    · simp [ht] at hhdrv
    · exact hend

/-! ### A bank decode and the header state -/

theorem blockStep_fetch_byte {s : State} {v : Byte} (hr : s.fetchReady) (hv : s.src[s.scur]? = some v) :
    blockStep s = .next (s.advanceCursor.takePlaneByte v).closeRecord := by
  simp only [blockStep_fetch hr.1, exec, execFetchStep, if_pos hr, State.streamNext_of_byte hv]

theorem blockStep_fetch_end {s : State} (hr : s.fetchReady) (hs : s.src.length ≤ s.scur) :
    blockStep s = .next (s.raiseFault .bankUnderrun) := by
  simp only [blockStep_fetch hr.1, exec, execFetchStep, if_pos hr, State.streamNext_at_end hs]

theorem blockStep_emit_values {s : State} {A B : Plane} (hr : s.emitReady) (hA : allValues s.cha = some A)
    (hB : allValues s.chb = some B) : blockStep s = .next (s.emitTile A B) := by
  simp only [blockStep_emit hr.1, exec, execEmitStep, if_pos hr, hA, hB]

/-- A state with other header registers. -/
def State.withHeader (v : Vector (Option Byte) 4) (p c : Option Byte) (h : Bool) (s : State) : State :=
  { s with sig := v, prg := p, chr := c, hdrv := h }

section
variable (v : Vector (Option Byte) 4) (p c : Option Byte) (h : Bool)

theorem State.withHeader_advanceCursor (s : State) :
    (s.withHeader v p c h).advanceCursor = s.advanceCursor.withHeader v p c h := rfl

theorem State.withHeader_takePlaneByte (b : Byte) (s : State) :
    (s.withHeader v p c h).takePlaneByte b = (s.takePlaneByte b).withHeader v p c h := by
  simp only [State.takePlaneByte, apply_ite (State.withHeader v p c h)]
  rfl

theorem State.withHeader_closeRecord (s : State) :
    (s.withHeader v p c h).closeRecord = s.closeRecord.withHeader v p c h := by
  simp only [State.closeRecord, apply_ite (State.withHeader v p c h)]
  rfl

theorem State.withHeader_advanceTile (s : State) :
    (s.withHeader v p c h).advanceTile = s.advanceTile.withHeader v p c h := by
  simp only [State.advanceTile, apply_ite (State.withHeader v p c h)]
  rfl

theorem State.withHeader_emitTile (A B : Plane) (s : State) :
    (s.withHeader v p c h).emitTile A B = (s.emitTile A B).withHeader v p c h := by
  have hcanvas : ∀ m : Memory, { s.withHeader v p c h with canvas := m } = State.withHeader v p c h { s with canvas := m } :=
    fun _ => rfl
  rw [State.emitTile, hcanvas, State.withHeader_advanceTile]
  rfl

end

/-- Everything the block's own step can do in a bank decode when it answers a next state. -/
theorem blockStep_bank_cases {s t : State} (hst : s.st = .fetch ∨ s.st = .emit) (h : blockStep s = .next t) :
    (s.fetchReady ∧ ∃ v, s.src[s.scur]? = some v ∧ t = (s.advanceCursor.takePlaneByte v).closeRecord) ∨
    (s.fetchReady ∧ s.src.length ≤ s.scur ∧ t = s.raiseFault .bankUnderrun) ∨
    (s.emitReady ∧ ∃ A B, allValues s.cha = some A ∧ allValues s.chb = some B ∧ t = s.emitTile A B) := by
  have hidle : ¬ (s.st = .idle ∨ s.st = .fault) := by rcases hst with e | e <;> simp [e]
  have hhdr : s.st ≠ .hdr := by rcases hst with e | e <;> simp [e]
  rcases blockStep_cases h with ⟨-, e⟩ | h | h | h | ⟨hr, -⟩ | ⟨hr, -⟩
  · exact absurd e hidle
  · exact .inl h
  · exact .inr (.inl h)
  · exact .inr (.inr h)
  · exact absurd hr.1 hhdr
  · exact absurd hr.1 hhdr

/-- Settles O55: each step of a bank decode commutes with changing the header registers, but for the fault, which gives both
runs the same ones. -/
theorem bankDecodeIgnoresTheHeader : Obligations.BankDecodeIgnoresTheHeader := by
  intro s t v p c h hag hst hstep
  have hstep' : step (s.withHeader v p c h) = blockStep (s.withHeader v p c h) := step_empty hag
  rw [step_empty hag] at hstep
  change ∃ t', step (s.withHeader v p c h) = .next t' ∧ _
  rw [hstep']
  rcases blockStep_bank_cases hst hstep with ⟨hr, b, hb, rfl⟩ | ⟨hr, hend, rfl⟩ | ⟨hr, A, B, hA, hB, rfl⟩
  · refine ⟨_, blockStep_fetch_byte hr hb, ?_⟩
    rw [State.withHeader_advanceCursor, State.withHeader_takePlaneByte, State.withHeader_closeRecord]
    rfl
  · exact ⟨_, blockStep_fetch_end hr hend, rfl⟩
  · refine ⟨_, blockStep_emit_values hr hA hB, ?_⟩
    rw [State.withHeader_emitTile]
    rfl

/-! ### The position -/

theorem position_fetchByte {s : State} (hr : s.fetchReady) (v : Byte) :
    (s.advanceCursor.takePlaneByte v).closeRecord.position = s.position + 1 := by
  obtain ⟨-, hbc, -⟩ := hr
  simp only [State.position, State.closeRecord_tn, State.closeRecord_bc, State.takePlaneByte_tn, State.takePlaneByte_bc,
    State.advanceCursor_tn, State.advanceCursor_bc]
  rw [toNat_bc_add_one (by omega)]
  omega

/-- The 16 bytes of `BC` become one tile of `TN`. -/
theorem position_emitTile {s : State} (hr : s.emitReady) (A B : Plane) : (s.emitTile A B).position = s.position := by
  obtain ⟨-, hbc, htn⟩ := hr
  simp only [State.position, State.emitTile_tn, State.emitTile_bc, toNat_tn_add_one htn, hbc]
  simp
  omega

/-- Settles O56. -/
theorem positionAdvancesWithTheCursor : Obligations.PositionAdvancesWithTheCursor := by
  intro s t hag hst hstep
  rw [step_empty hag] at hstep
  rcases blockStep_bank_cases hst hstep with ⟨hr, v, hv, rfl⟩ | ⟨hr, hend, rfl⟩ | ⟨hr, A, B, -, -, rfl⟩
  · have hlt : s.scur < s.src.length := (List.getElem?_eq_some_iff.1 hv).1
    exact ⟨fun _ _ => ⟨position_fetchByte hr v, by simp⟩, fun _ hend => absurd hlt (by omega), by simp [hr.1]⟩
  · exact ⟨fun _ hlt => absurd hlt (by omega), fun _ _ => ⟨rfl, rfl⟩, by simp [hr.1]⟩
  · exact ⟨by simp [hr.1], by simp [hr.1], fun _ => ⟨position_emitTile hr A B, by simp⟩⟩

end Sys2Proof.Machine
end

section
/-!
PROOFS, 20_memory.md R41 to R43: what a step does to the stream and its cursor (O49, O50).
-/
namespace Sys2Proof.Machine

open Sys2Proof

/-! ### The stream -/

theorem blockStep_src {s t : State} (h : blockStep s = .next t) : t.src = s.src := by
  rcases blockStep_cases h with
    ⟨rfl, -⟩ | ⟨-, v, -, rfl⟩ | ⟨-, -, rfl⟩ | ⟨-, A, B, -, -, rfl⟩ | ⟨-, v, -, rfl⟩ | ⟨-, -, rfl⟩ <;> simp

theorem TurnEffect.src {x : Turn} {u t : State} (h : TurnEffect u x t) : t.src = u.src := by
  cases h
  case block hb => exact blockStep_src hb
  case tfetch => exact State.fetchBytes_src 16 u
  all_goals rfl

/-- Settles O49. -/
theorem noStepWritesTheStream : Obligations.NoStepWritesTheStream := by
  intro s t hstep
  rcases step_effect hstep with hb | ⟨x, rest, -, he⟩
  · exact blockStep_src hb
  · exact he.src

/-! ### The cursor -/

/-- Settles O50: the cursor moves in a FETCH step and in an HDR step that find a byte, and in no other case of the block's
own step. -/
theorem cursorMovesForwardByteByByte : Obligations.CursorMovesForwardByteByByte := by
  intro s t hag hstep
  rw [step_empty hag] at hstep
  have hlt : ∀ {v : Byte}, s.src[s.scur]? = some v → s.scur < s.src.length := fun hv => (List.getElem?_eq_some_iff.1 hv).1
  rcases blockStep_cases hstep with
    ⟨rfl, -⟩ | ⟨hr, v, hv, rfl⟩ | ⟨-, -, rfl⟩ | ⟨-, A, B, -, -, rfl⟩ | ⟨hr, v, hv, rfl⟩ | ⟨-, -, rfl⟩
  · exact .inl rfl
  · exact .inr ⟨by simp, hlt hv, .inr hr.1⟩
  · exact .inl rfl
  · exact .inl (by simp)
  · exact .inr ⟨by simp, hlt hv, .inl hr.1⟩
  · exact .inl rfl

end Sys2Proof.Machine
end

section
/-!
PROOFS, 30_encoding.md R70 to R78, R86: decoding what the encoder writes, format by format (O1), the command byte (O2), words
written out (O4).
-/
namespace Sys2Proof

open Sys2Proof.Machine

/-! ### The command word -/

/-- The rows of the opcode table with format `CMD` (30_encoding.md R86): a command word and its operation. -/
inductive CommandRow : Byte → Instr → Prop where
  | nop : CommandRow 0x00 .nop
  | readHeader : CommandRow 0x01 .readHeader
  | decodeBank : CommandRow 0x02 .decodeBank
  | reserved03 : CommandRow 0x03 .reserved03
  | reserved04to07 (x : BitVec 2) : CommandRow (1#6 ++ x) (.reserved04to07 x)
  | reserved08to0F (x : BitVec 3) : CommandRow (1#5 ++ x) (.reserved08to0F x)
  | reserved10to1F (x : BitVec 4) : CommandRow (1#4 ++ x) (.reserved10to1F x)
  | reserved20to3F (x : BitVec 5) : CommandRow (1#3 ++ x) (.reserved20to3F x)
  | reserved40to7F (x : BitVec 6) : CommandRow (1#2 ++ x) (.reserved40to7F x)
  | reserved80toFF (x : BitVec 7) : CommandRow (1#1 ++ x) (.reserved80toFF x)

/-- The command words of the rows, the free bits read off the word, are all there are. -/
theorem commandWord_cases : ∀ w : Byte, w = 0x00 ∨ w = 0x01 ∨ w = 0x02 ∨ w = 0x03 ∨
    w = 1#6 ++ w.extractLsb' 0 2 ∨ w = 1#5 ++ w.extractLsb' 0 3 ∨ w = 1#4 ++ w.extractLsb' 0 4 ∨
    w = 1#3 ++ w.extractLsb' 0 5 ∨ w = 1#2 ++ w.extractLsb' 0 6 ∨ w = 1#1 ++ w.extractLsb' 0 7 := by decide

theorem CommandRow.decodeCmd_eq {w : Byte} {i : Instr} (h : CommandRow w i) : decodeCmd w = i := by
  cases h with
  | nop | readHeader | decodeBank | reserved03 => rfl
  | reserved04to07 x => exact decodeCmd_reserved04to07 x
  | reserved08to0F x => exact decodeCmd_reserved08to0F x
  | reserved10to1F x => exact decodeCmd_reserved10to1F x
  | reserved20to3F x => exact decodeCmd_reserved20to3F x
  | reserved40to7F x => exact decodeCmd_reserved40to7F x
  | reserved80toFF x => exact decodeCmd_reserved80toFF x

/-- Every byte stands in a row, the one that `decodeCmd` picks. -/
theorem commandRow_decodeCmd (w : Byte) : CommandRow w (decodeCmd w) := by
  have hrow : ∃ i, CommandRow w i := by
    rcases commandWord_cases w with h | h | h | h | h | h | h | h | h | h <;> rw [h]
    exacts [⟨_, .nop⟩, ⟨_, .readHeader⟩, ⟨_, .decodeBank⟩, ⟨_, .reserved03⟩, ⟨_, .reserved04to07 _⟩, ⟨_, .reserved08to0F _⟩,
      ⟨_, .reserved10to1F _⟩, ⟨_, .reserved20to3F _⟩, ⟨_, .reserved40to7F _⟩, ⟨_, .reserved80toFF _⟩]
  obtain ⟨i, hi⟩ := hrow
  rwa [hi.decodeCmd_eq]

theorem CommandRow.encode_eq {w : Byte} {i : Instr} (h : CommandRow w i) : encode i = some (cmdWrite w) := by
  cases h <;> rfl

/-- Decoding a command word in the place where the encoder writes it. -/
theorem CommandRow.decode_eq {w : Byte} {i : Instr} (h : CommandRow w i) : decode (cmdWrite w) = .ok i :=
  congrArg Except.ok h.decodeCmd_eq

/-- The rows from 0x03 on are the reserved ones (43_control_commands.md R159). -/
theorem CommandRow.exec_reserved {w : Byte} {i : Instr} (h : CommandRow w i) (hw : 0x03 ≤ w.toNat) (s : State) :
    exec i s = .next s.refuseAction := by
  cases h with
  | nop | readHeader | decodeBank => simp at hw
  | _ => rfl

/-- Settles O2: every byte is in a row of the table, and each row has what is said of it. -/
theorem commandByteIsTheWholeOpcode : Obligations.CommandByteIsTheWholeOpcode := by
  intro w
  have hrow := commandRow_decodeCmd w
  refine ⟨?_, ?_, ?_, hrow.exec_reserved, hrow.encode_eq⟩
  · rintro rfl; rfl
  · rintro rfl; rfl
  · rintro rfl; rfl

/-! ### The other formats -/

theorem decode_write_palette (i : BitVec 2) (byte : Byte) (v : Color) :
    decode (.access (.write (1#6 ++ i) byte v)) = .ok (.ldpal i v) := by
  have hword : ∀ i : BitVec 2, (1#6 ++ i : Byte) ≠ 0x00 ∧ (1#6 ++ i : Byte) &&& 0xFC = 0x04 ∧
      (1#6 ++ i : Byte).extractLsb' 0 2 = i := by decide
  obtain ⟨hcmd, hmask, hindex⟩ := hword i
  simp only [decode, decodeAccess, if_neg hcmd, if_pos hmask, hindex]

theorem decode_read_palette : ∀ i : BitVec 2, decode (.access (.read (1#6 ++ i))) = .ok (.rdPal i) := by decide

theorem decode_read_signature : ∀ i : BitVec 2, decode (.access (.read (2#6 ++ i))) = .ok (.rdSig i) := by decide

theorem decode_readPixel (a : BitVec 15) : decode (.access (.readPixel a.toNat)) = .ok (.rdpix a) := by
  simp only [decode, decodeAccess, if_pos a.isLt, BitVec.ofNat_toNat, BitVec.setWidth_eq]

theorem decode_tile (A B : Plane) : decode (.tile (A.toList ++ B.toList)) = .ok (.tile A B) := by
  have hA : bytesVector 8 (A.toList ++ B.toList) = A := bytesVector_toList_append A B.toList
  have hB : bytesVector 8 B.toList = B := by simpa using bytesVector_toList_append B []
  simp [decode, hA, hB]

theorem decode_hdr (v : Vector Byte 4) (p c : Byte) : decode (.hdr (v.toList ++ [p, c])) = .ok (.hdr v p c) := by
  simp [decode, bytesVector_toList_append]

theorem decode_sig4 {bytes : List Byte} (h : bytes.length = 4) : decode (.sig4 bytes) = .ok (.isValidSignature bytes) := by
  simp only [decode, if_pos h]

/-- Settles O1: one case for each row of the opcode table that has an encoding. -/
theorem encodeThenDecodeGivesTheInstruction : Obligations.EncodeThenDecodeGivesTheInstruction := by
  intro i e hwf he
  cases i with
  | nop | readHeader | decodeBank | reserved03 | reserved04to07 | reserved08to0F | reserved10to1F | reserved20to3F
  | reserved40to7F | reserved80toFF => cases he; exact CommandRow.decode_eq (by constructor)
  | ldpal i v => cases he; exact decode_write_palette i 0 v
  | rdStatus | rdTn | rdBc | rdPrg | rdChr | rdSigok => cases he; rfl
  | rdPal i => cases he; exact decode_read_palette i
  | rdSig i => cases he; exact decode_read_signature i
  | rdpix a => cases he; exact decode_readPixel a
  | tile A B => cases he; exact decode_tile A B
  | hdr v p c => cases he; exact decode_hdr v p c
  | isValidSignature bytes => cases he; exact decode_sig4 (by simpa [Instr.wellFormed] using hwf)
  | tfetch | pixidx | lut | tdecode | tplace | fetchStep | emitStep | hdrStep | reset => cases he

/-- Settles O4: the decoder evaluated at each of the words. -/
theorem writtenOutWordsDecode : Obligations.WrittenOutWordsDecode := ⟨rfl, rfl, rfl, rfl, rfl, rfl⟩

end Sys2Proof
end

section
/-!
PROOFS, 30_encoding.md R71, R74, R81: the canvas address as bit fields (O17), the TILE record (O15) and the HDR record (O31)
beside the steps that read them byte by byte.
-/
namespace Sys2Proof.Machine

open Sys2Proof

/-! ### The canvas address -/

theorem toNat_append_eq_add {m n : Nat} (x : BitVec m) (y : BitVec n) : (x ++ y).toNat = x.toNat * 2 ^ n + y.toNat := by
  rw [BitVec.toNat_append, ← Nat.shiftLeft_add_eq_or_of_lt y.isLt, Nat.shiftLeft_eq]

/-- Settles O17: a field below another counts up to the other's unit, so the concatenation is the sum. -/
theorem canvasAddressIsFourBitFields : Obligations.CanvasAddressIsFourBitFields := by
  intro n r c
  have hn := n.isLt
  have hr := r.isLt
  have hc := c.isLt
  refine ⟨rfl, ?_, by omega, by omega⟩
  simp only [toNat_append_eq_add, BitVec.extractLsb'_toNat, Nat.shiftRight_eq_div_pow, pixelAddress, tileX, tileY]
  omega

/-! ### A register array filled in order -/

/-- The array `w` with `f 0` to `f (k - 1)` in its first `k` places. -/
def filled {α : Type} {n : Nat} (k : Nat) (f : Nat → α) (w : Vector α n) : Vector α n :=
  Vector.ofFn fun r => if r.val < k then f r.val else w[r]

theorem filled_zero {α : Type} {n : Nat} (f : Nat → α) (w : Vector α n) : filled 0 f w = w := by
  ext r hr
  simp [filled]

theorem setIfInBounds_filled {α : Type} {n : Nat} (k : Nat) (f : Nat → α) (w : Vector α n) :
    (filled k f w).setIfInBounds k (f k) = filled (k + 1) f w := by
  ext r hr
  simp only [filled, Vector.getElem_setIfInBounds, Vector.getElem_ofFn]
  rcases Nat.lt_trichotomy r k with h | rfl | h
  · simp [h, Nat.lt_succ_of_lt h, Nat.ne_of_gt h]
  · simp
  · simp [Nat.not_lt_of_gt h, Nat.ne_of_lt h, Nat.not_lt.2 (Nat.succ_le_of_lt h)]

theorem filled_of_le {α : Type} {n k : Nat} (f : Nat → α) (w : Vector α n) (h : n ≤ k) :
    filled k f w = Vector.ofFn fun r => f r.val := by
  ext r hr
  simp [filled, Nat.lt_of_lt_of_le hr h]

theorem filled_succ_of_le {α : Type} {n k : Nat} (f : Nat → α) (w : Vector α n) (h : n ≤ k) :
    filled (k + 1) f w = filled k f w := by
  rw [filled_of_le f w h, filled_of_le f w (Nat.le_succ_of_le h)]

/-! ### The bytes of a tile record -/

/-- A count of record bytes fits in `BC`. -/
theorem toNat_ofNat_five {k : Nat} (h : k < 32) : (BitVec.ofNat 5 k).toNat = k := by
  rw [BitVec.toNat_ofNat, Nat.mod_eq_of_lt h]

/-- `s` with the first `k` bytes of the tile record at the cursor taken into the plane buffers (40_tile_decode.md R101). -/
def State.planesTaken (k : Nat) (s : State) : State :=
  { s with
    cha := filled k (fun r => s.src[s.scur + r]?) s.cha
    chb := filled (k - 8) (fun r => s.src[s.scur + 8 + r]?) s.chb
    scur := s.scur + k, bc := BitVec.ofNat 5 k }

theorem State.planesTaken_zero {s : State} (h : s.bc = 0) : s.planesTaken 0 = s := by
  rw [State.planesTaken, Nat.zero_sub, filled_zero, filled_zero, show BitVec.ofNat 5 0 = s.bc from h.symm]
  rfl

/-- Taking the next byte of a tile record. -/
theorem State.planesTaken_succ {s : State} {k : Nat} {v : Byte} (hk : k < 16) (hv : s.src[s.scur + k]? = some v) :
    (s.planesTaken k).advanceCursor.takePlaneByte v = s.planesTaken (k + 1) := by
  have hbc : (BitVec.ofNat 5 k).toNat = k := toNat_ofNat_five (by omega)
  have hnext : BitVec.ofNat 5 k + 1 = BitVec.ofNat 5 (k + 1) := (BitVec.ofNat_add k 1).symm
  simp only [State.planesTaken, State.advanceCursor, State.takePlaneByte, hbc, hnext]
  split
  case isTrue h =>
    have hchb : k + 1 - 8 = k - 8 := by omega
    rw [← hv, setIfInBounds_filled k (fun r => s.src[s.scur + r]?), hchb]
    rfl
  case isFalse h =>
    have hv' : s.src[s.scur + 8 + (k - 8)]? = some v := by rwa [show s.scur + 8 + (k - 8) = s.scur + k by omega]
    have hchb : k + 1 - 8 = k - 8 + 1 := by omega
    rw [← hv', setIfInBounds_filled (k - 8) (fun r => s.src[s.scur + 8 + r]?), filled_succ_of_le _ s.cha (by omega), hchb]
    rfl

/-- Reading on in a tile record that the stream holds to its end. -/
theorem State.fetchBytes_planesTaken {s : State} (hlen : s.scur + 16 ≤ s.src.length) {n k : Nat} (hnk : k + n = 16) :
    (s.planesTaken k).fetchBytes n = { s.planesTaken 16 with st := .emit } := by
  induction n generalizing k with
  | zero => cases hnk; rfl
  | succ n ih =>
    have hv : s.src[s.scur + k]? = some s.src[s.scur + k] := List.getElem?_eq_getElem (by omega)
    have hcursor : (s.planesTaken k).src[(s.planesTaken k).scur]? = some s.src[s.scur + k] := hv
    rw [State.fetchBytes_succ n hcursor, State.planesTaken_succ (by omega) hv, ih (by omega)]

/-- Where a tile record starts, FETCH is enabled, as TFETCH and the TILE record ask (R101, R124). -/
theorem fetchReady_at_start {s : State} (hst : s.st = .fetch) (hbc : s.bc = 0) (htn : s.tn.toNat ≤ 511) :
    s.fetchReady ∧ s.bc = 0 :=
  ⟨⟨hst, by simp [hbc], htn⟩, hbc⟩

/-- TFETCH with a whole tile record at the cursor (40_tile_decode.md R101). -/
theorem exec_tfetch_of_record {s : State} (hst : s.st = .fetch) (hbc : s.bc = 0) (htn : s.tn.toNat ≤ 511)
    (hlen : s.scur + 16 ≤ s.src.length) :
    exec .tfetch s = .next { s with
      cha := Vector.ofFn fun r : Fin 8 => s.src[s.scur + r.val]?
      chb := Vector.ofFn fun r : Fin 8 => s.src[s.scur + 8 + r.val]?
      scur := s.scur + 16, bc := 16, st := .emit } := by
  have hready := fetchReady_at_start hst hbc htn
  have hrun : s.fetchBytes 16 = { s.planesTaken 16 with st := .emit } := by
    simpa only [State.planesTaken_zero hbc] using State.fetchBytes_planesTaken hlen (k := 0) rfl
  simp only [exec, execTfetch, if_pos hready, hrun, State.planesTaken]
  rw [filled_of_le _ s.cha (by omega), filled_of_le _ s.chb (by omega)]
  rfl

/-- Settles O15: the record's planes are those that TFETCH reads, byte by byte, from a stream that holds it. -/
theorem tileRecordIsFetchedAndDecoded : Obligations.TileRecordIsFetchedAndDecoded := by
  intro A B s hst hbc htn
  have hready := fetchReady_at_start hst hbc htn
  refine ⟨_, if_pos hready, rfl, fun hrecord => ?_⟩
  have hlast : s.scur + 8 + 7 < s.src.length := (List.getElem?_eq_some_iff.1 (hrecord 7).2).1
  rw [exec_tfetch_of_record hst hbc htn (by omega)]
  simp only [fun r => (hrecord r).1, fun r => (hrecord r).2]
  rfl

/-! ### The bytes of a header record -/

/-- `s` with the first `k` bytes of the header record at the cursor taken (42_header_validator.md R140). -/
def State.headerTaken (k : Nat) (s : State) : State :=
  { s with
    sig := filled k (fun i => s.src[s.scur + i]?) s.sig
    prg := if 4 < k then s.src[s.scur + 4]? else s.prg
    chr := if 5 < k then s.src[s.scur + 5]? else s.chr
    scur := s.scur + k, bc := BitVec.ofNat 5 k }

theorem State.headerTaken_zero {s : State} (h : s.bc = 0) : s.headerTaken 0 = s := by
  rw [State.headerTaken, filled_zero, show BitVec.ofNat 5 0 = s.bc from h.symm]
  rfl

/-- Taking the next byte of a header record. -/
theorem State.headerTaken_succ {s : State} {k : Nat} {v : Byte} (hk : k < 6) (hv : s.src[s.scur + k]? = some v) :
    (s.headerTaken k).advanceCursor.takeHeaderByte v = s.headerTaken (k + 1) := by
  have hbc : (BitVec.ofNat 5 k).toNat = k := toNat_ofNat_five (by omega)
  have hnext : BitVec.ofNat 5 k + 1 = BitVec.ofNat 5 (k + 1) := (BitVec.ofNat_add k 1).symm
  simp only [State.headerTaken, State.advanceCursor, State.takeHeaderByte, hbc, hnext]
  split
  case isTrue h =>
    rw [← hv, setIfInBounds_filled k (fun i => s.src[s.scur + i]?)]
    simp (disch := omega) only [if_neg]
    rfl
  split
  case isTrue h =>
    subst h
    simp [filled_succ_of_le, hv]
  case isFalse h =>
    obtain rfl : k = 5 := by omega
    simp [filled_succ_of_le, hv]

/-- A header read is not at its end before the sixth byte. -/
theorem State.closeHeader_headerTaken {k : Nat} (hk : k < 6) (s : State) :
    (s.headerTaken k).closeHeader = s.headerTaken k := by
  have hbc : BitVec.ofNat 5 k ≠ 6 := fun h => by
    have hk6 : (BitVec.ofNat 5 k).toNat = 6 := congrArg BitVec.toNat h
    rw [toNat_ofNat_five (by omega)] at hk6
    omega
  exact if_neg hbc

/-- An HDR step with a byte at the cursor (42_header_validator.md R141). -/
theorem blockStep_hdr_byte {s : State} {v : Byte} (hr : s.hdrReady) (hv : s.src[s.scur]? = some v) :
    blockStep s = .next (s.advanceCursor.takeHeaderByte v).closeHeader := by
  simp only [blockStep_hdr hr.1, exec, execHdrStep, if_pos hr, State.streamNext_of_byte hv]

theorem step_headerTaken {s : State} {k : Nat} {v : Byte} (hag : s.agenda = []) (hst : s.st = .hdr) (hk : k < 6)
    (hv : s.src[s.scur + k]? = some v) : step (s.headerTaken k) = .next (s.headerTaken (k + 1)).closeHeader := by
  have hready : (s.headerTaken k).hdrReady := ⟨hst, by simp [State.headerTaken]; omega⟩
  rw [step_empty (show (s.headerTaken k).agenda = [] from hag), blockStep_hdr_byte hready hv, State.headerTaken_succ hk hv]

/-- The steps inside a header read. -/
theorem runSteps_headerTaken {s : State} (hag : s.agenda = []) (hst : s.st = .hdr) (hbc : s.bc = 0) {k : Nat} (hk : k < 6)
    (hlen : s.scur + k ≤ s.src.length) : runSteps k s = .next (s.headerTaken k) := by
  induction k with
  | zero => rw [State.headerTaken_zero hbc]; rfl
  | succ k ih =>
    have hv : s.src[s.scur + k]? = some s.src[s.scur + k] := List.getElem?_eq_getElem (by omega)
    rw [runSteps_add 1 (ih (by omega) (by omega)), runSteps_succ (step_headerTaken hag hst (by omega) hv),
      State.closeHeader_headerTaken hk]
    rfl

/-- Six steps over a whole header record (42_header_validator.md R140). -/
theorem runSteps_header_record {s : State} (hag : s.agenda = []) (hst : s.st = .hdr) (hbc : s.bc = 0)
    (hlen : s.scur + 6 ≤ s.src.length) :
    runSteps 6 s = .next { s with
      sig := Vector.ofFn fun k : Fin 4 => s.src[s.scur + k.val]?
      prg := s.src[s.scur + 4]?, chr := s.src[s.scur + 5]?
      scur := s.scur + 6, hdrv := true, bc := 0, st := .idle } := by
  have hv : s.src[s.scur + 5]? = some s.src[s.scur + 5] := List.getElem?_eq_getElem (by omega)
  rw [runSteps_add (j := 5) 1 (runSteps_headerTaken hag hst hbc (by omega) (by omega)),
    runSteps_succ (step_headerTaken hag hst (by omega) hv)]
  simp only [State.headerTaken]
  rw [filled_of_le _ s.sig (by omega)]
  rfl

/-- Settles O31: the record's fields are those that the six steps read from a stream that holds it. -/
theorem hdrRecordFillsTheResult : Obligations.HdrRecordFillsTheResult := by
  intro v p c s hst hbc
  have hexec : exec (.hdr v p c) s = .next { s with
      sig := holding v, prg := some p, chr := some c, scur := s.scur + 6, hdrv := true, bc := 0, st := .idle } :=
    if_pos ⟨hst, hbc⟩
  refine ⟨hexec, fun hag hsig hprg hchr => ?_⟩
  have hlast : s.scur + 5 < s.src.length := (List.getElem?_eq_some_iff.1 hchr).1
  rw [runSteps_header_record hag hst hbc (by omega), hexec]
  simp only [hsig, hprg, hchr]
  rfl

end Sys2Proof.Machine
end

section
/-!
PROOFS, 40_tile_decode.md: the index of a pixel in its three forms (O6, O7, O9), grids and tile records (O5, O8), the LUT and
TDECODE (O10, O11), TFETCH with and without a whole record at the cursor (O12, O13) and as FETCH steps (O14).
-/
namespace Sys2Proof.Machine

open Sys2Proof

/-! ### A whole record, and a stream that ends inside one -/

/-- Settles O12. -/
theorem tfetchFillsThePlanes : Obligations.TfetchFillsThePlanes := by
  intro s hst hbc htn hlen
  have hA : ∀ r : Fin 8, s.src[s.scur + r.val]? = some (s.src[s.scur + r.val]'(by omega)) :=
    fun r => List.getElem?_eq_getElem _
  have hB : ∀ r : Fin 8, s.src[s.scur + 8 + r.val]? = some (s.src[s.scur + 8 + r.val]'(by omega)) :=
    fun r => List.getElem?_eq_getElem _
  simp only [exec_tfetch_of_record hst hbc htn hlen, hA, hB]

/-- Reading on in a tile record of which the stream holds only the first `m` bytes. -/
theorem State.fetchBytes_planesTaken_short {s : State} {m : Nat} (hm : m = s.src.length - s.scur) {n k : Nat}
    (hkm : k ≤ m) (hnk : m < k + n) (hlast : k + n = 16) :
    (s.planesTaken k).fetchBytes n = (s.planesTaken m).raiseFault .bankUnderrun := by
  induction n generalizing k with
  | zero => omega
  | succ n ih =>
    rcases Nat.lt_or_ge (s.scur + k) s.src.length with hin | hend
    · have hv : s.src[s.scur + k]? = some s.src[s.scur + k] := List.getElem?_eq_getElem hin
      have hcursor : (s.planesTaken k).src[(s.planesTaken k).scur]? = some s.src[s.scur + k] := hv
      rw [State.fetchBytes_succ n hcursor, State.planesTaken_succ (by omega) hv, ih (by omega) (by omega) (by omega)]
    · obtain rfl : k = m := by omega
      exact State.fetchBytes_at_end n hend

/-- TFETCH on a stream that ends inside the tile record (40_tile_decode.md R101). -/
theorem exec_tfetch_short {s : State} (hst : s.st = .fetch) (hbc : s.bc = 0) (htn : s.tn.toNat ≤ 511)
    (hlen : s.src.length < s.scur + 16) :
    exec .tfetch s = .next ((s.planesTaken (s.src.length - s.scur)).raiseFault .bankUnderrun) := by
  have hrun : (s.planesTaken 0).fetchBytes 16 = _ :=
    State.fetchBytes_planesTaken_short rfl (Nat.zero_le _) (by omega) rfl
  rw [State.planesTaken_zero hbc] at hrun
  simp only [exec, execTfetch, if_pos (fetchReady_at_start hst hbc htn), hrun]

/-- Settles O13: the fault entry discards the results and leaves the planes as far as they were read. -/
theorem tfetchShortOfARecordFaults : Obligations.TfetchShortOfARecordFaults := by
  intro s hst hbc htn hlen
  have hsig : ∀ k : Fin 4, (Vector.replicate 4 (none : Option Byte))[k] = none := fun k => by simp
  refine ⟨_, exec_tfetch_short hst hbc htn hlen, rfl, rfl, rfl, rfl, Memory.read_nil, hsig, rfl, rfl, rfl,
    toNat_ofNat_five (by omega), ?_, fun r => ?_, fun r => ?_, rfl, rfl, rfl, rfl, rfl, rfl, rfl⟩
  · simp only [State.raiseFault_scur, State.planesTaken]
    omega
  · have hread : r.val < s.src.length - s.scur ↔ s.scur + r.val < s.src.length := by omega
    simp [State.planesTaken, filled, hread]
  · have hread : r.val < s.src.length - s.scur - 8 ↔ s.scur + 8 + r.val < s.src.length := by omega
    simp [State.planesTaken, filled, hread]

/-! ### TFETCH as FETCH steps -/

/-- With nothing on the agenda a faulted block stays as it is. -/
theorem runSteps_fault {s : State} (hag : s.agenda = []) (hst : s.st = .fault) (n : Nat) : runSteps n s = .next s := by
  induction n with
  | zero => rfl
  | succ n ih => rw [runSteps_succ ((step_empty hag).trans (blockStep_fault hst)), ih]

theorem State.closeRecord_of_lt {s : State} (hbc : s.bc.toNat < 16) : s.closeRecord = s :=
  if_neg fun h => by simp [h] at hbc

/-- The FETCH steps from any byte of a tile record to its end, and the same bytes read in a row. The record is closed after
each byte by the one and after the last by the other. -/
theorem runSteps_closeRecord {s : State} {n : Nat} (hag : s.agenda = []) (hst : s.st = .fetch) (htn : s.tn.toNat ≤ 511)
    (hn : s.bc.toNat + n = 16) : runSteps n s.closeRecord = .next (s.fetchBytes n) := by
  induction n generalizing s with
  | zero => rfl
  | succ n ih =>
    have hready : s.fetchReady := ⟨hst, by omega, htn⟩
    rw [State.closeRecord_of_lt (by omega)]
    rcases Nat.lt_or_ge s.scur s.src.length with hin | hend
    · have hv : s.src[s.scur]? = some s.src[s.scur] := List.getElem?_eq_getElem hin
      have hcount : (s.advanceCursor.takePlaneByte s.src[s.scur]).bc.toNat + n = 16 := by
        rw [State.takePlaneByte_bc, State.advanceCursor_bc, toNat_bc_add_one (by omega)]
        omega
      rw [runSteps_succ ((step_empty hag).trans (blockStep_fetch_byte hready hv)), State.fetchBytes_succ n hv]
      exact ih (by simpa using hag) (by simpa using hst) (by simpa using htn) hcount
    · rw [runSteps_succ ((step_empty hag).trans (blockStep_fetch_end hready hend)), State.fetchBytes_at_end n hend]
      exact runSteps_fault (s := s.raiseFault .bankUnderrun) hag rfl n

/-- Settles O14. -/
theorem sixteenFetchStepsAreOneTfetch : Obligations.SixteenFetchStepsAreOneTfetch := by
  intro s hag hst hbc htn
  have hzero : s.bc.toNat = 0 := congrArg BitVec.toNat hbc
  have hrun := runSteps_closeRecord (n := 16) hag hst htn (by omega)
  rw [State.closeRecord_of_lt (by omega)] at hrun
  simp only [exec, execTfetch, if_pos (fetchReady_at_start hst hbc htn), hrun]

/-! ### The index of a pixel, by mask and packed -/

/-- Settles O6. -/
theorem pixidxIsBitOfAPlusTwiceBitOfB : Obligations.PixidxIsBitOfAPlusTwiceBitOfB := by
  intro a b c s
  exact ⟨pixidx a b c, rfl, by rw [pixidx_toNat, bit_eq, bit_eq]⟩

/-- A mask with bit `k` alone tells that bit. -/
theorem ite_and_twoPow (a : Byte) {k : Nat} (hk : k < 8) : (if a &&& BitVec.twoPow 8 k ≠ 0 then 1 else 0) = bit a k := by
  have hmask : BitVec.twoPow 8 k ≠ 0 := fun h => by
    have hbit := congrArg (BitVec.getLsbD · k) h
    simp [hk] at hbit
  rw [bit_eq, BitVec.and_twoPow]
  cases a.getLsbD k
  · simp
  · rw [if_pos rfl, if_pos hmask]
    rfl

/-- The mask of column `c` picks the bits that PIXIDX adds up (40_tile_decode.md R103). -/
theorem maskIndex_eq_pixidx (a b : Byte) (c : Fin 8) : maskIndex a b ((0x80 : Byte) >>> c.val) = (pixidx a b c).toNat := by
  have hmask : ∀ c : Fin 8, (0x80 : Byte) >>> c.val = BitVec.twoPow 8 (7 - c.val) := by decide
  rw [hmask, maskIndex, ite_and_twoPow a (by omega), ite_and_twoPow b (by omega), pixidx_toNat]

theorem maskColumns_eq_map (a b : Byte) (n : Nat) (m : Byte) :
    maskColumns a b n m = (List.range n).map fun c => maskIndex a b (m >>> c) := by
  induction n generalizing m with
  | zero => rfl
  | succ n ih =>
    rw [maskColumns, ih, List.range_succ_eq_map, List.map_cons, List.map_map]
    simp [Function.comp_def, ← BitVec.shiftRight_add, Nat.add_comm]

/-- Settles O7. -/
theorem maskFormGivesTheSameIndices : Obligations.MaskFormGivesTheSameIndices := by
  intro a b
  calc maskRow a b
      = (List.range 8).map fun c => maskIndex a b ((0x80 : Byte) >>> c) := maskColumns_eq_map a b 8 0x80
    _ = (List.finRange 8).map fun c => maskIndex a b ((0x80 : Byte) >>> c.val) := rfl
    _ = (List.finRange 8).map fun c => (pixidx a b c).toNat := by simp only [maskIndex_eq_pixidx]

/-- The index as two bits, that of `b` above that of `a` (40_tile_decode.md R102). -/
theorem pixidx_eq_append (a b : Byte) (c : Fin 8) :
    pixidx a b c = BitVec.ofBool (b.getLsbD (7 - c.val)) ++ BitVec.ofBool (a.getLsbD (7 - c.val)) := by
  apply BitVec.eq_of_toNat_eq
  rw [pixidx_toNat, toNat_append_eq_add, bit_eq, bit_eq, BitVec.toNat_ofBool, BitVec.toNat_ofBool]
  omega

/-- Settles O9: bits `2 * k + 1` and `2 * k` are the index of column `7 - k`. -/
theorem packedRowInterleavesThePlanes : Obligations.PackedRowInterleavesThePlanes := by
  intro a b k hk
  simp only [packedRow, pixidx_eq_append, BitVec.getLsbD_append]
  interval_cases k <;> simp

/-! ### Grids and tile records -/

/-- Column `c` of a row of eight binary digits, column 0 the highest, read off the number they make. -/
theorem binaryDigit_eq (x : Fin 8 → Nat) (hx : ∀ k, x k ≤ 1) (c : Fin 8) :
    (List.finRange 8).foldl (fun acc k => acc + x k * 2 ^ (7 - k.val)) 0 % 2 ^ 8 / 2 ^ (7 - c.val) % 2 = x c := by
  have hsum : (List.finRange 8).foldl (fun acc k => acc + x k * 2 ^ (7 - k.val)) 0 =
      x 0 * 128 + x 1 * 64 + x 2 * 32 + x 3 * 16 + x 4 * 8 + x 5 * 4 + x 6 * 2 + x 7 := by simp [List.finRange_succ]
  have hdigits : x 0 ≤ 1 ∧ x 1 ≤ 1 ∧ x 2 ≤ 1 ∧ x 3 ≤ 1 ∧ x 4 ≤ 1 ∧ x 5 ≤ 1 ∧ x 6 ≤ 1 ∧ x 7 ≤ 1 := by simp [hx]
  rw [hsum]
  fin_cases c <;> simp <;> omega

/-- The bits of the byte that a row of a grid is encoded as (30_encoding.md R82). -/
theorem bit_rowByte {f : Nat → Nat} (hf : ∀ i : BitVec 2, f i.toNat ≤ 1) (row : Vector (BitVec 2) 8) (c : Fin 8) :
    bit (rowByte f row) (7 - c.val) = f row[c].toNat := by
  rw [bit, Nat.shiftRight_eq_div_pow, Nat.and_one_is_mod, rowByte, BitVec.toNat_ofNat]
  exact binaryDigit_eq (fun k => f row[k].toNat) (fun k => hf row[k]) c

/-- The bits that PIXIDX reads, one for each column, are all the bits of a byte. -/
theorem byte_ext_of_bit {a b : Byte} (h : ∀ c : Fin 8, bit a (7 - c.val) = bit b (7 - c.val)) : a = b := by
  refine BitVec.eq_of_getLsbD_eq fun k hk => ?_
  have hbit := h ⟨7 - k, by omega⟩
  rw [show 7 - (7 - k) = k by omega, bit_eq, bit_eq] at hbit
  rw [Bool.eq_iff_iff, ← Bool.toNat_eq_one, ← Bool.toNat_eq_one, hbit]

theorem plane_ext {A B : Plane} (heq : ∀ r : Fin 8, A[r] = B[r]) : A = B := Vector.ext fun r hr => heq ⟨r, hr⟩

/-- Two grids, or two tiles, are equal when their pixels are. -/
theorem ext_of_pixels {α : Type} {g h : Vector (Vector α 8) 8} (heq : ∀ r c : Fin 8, g[r][c] = h[r][c]) : g = h := by
  ext r hr c hc : 2
  exact heq ⟨r, hr⟩ ⟨c, hc⟩

theorem bit_gridPlaneA (g : Grid) (r c : Fin 8) : bit (gridPlaneA g)[r] (7 - c.val) = g[r][c].toNat % 2 := by
  have hplane : (gridPlaneA g)[r] = rowByte (· % 2) g[r] := by simp [gridPlaneA]
  rw [hplane, bit_rowByte fun i => by omega]

theorem bit_gridPlaneB (g : Grid) (r c : Fin 8) : bit (gridPlaneB g)[r] (7 - c.val) = g[r][c].toNat / 2 := by
  have hplane : (gridPlaneB g)[r] = rowByte (· / 2) g[r] := by simp [gridPlaneB]
  rw [hplane, bit_rowByte fun i => by omega]

/-- Encoding a grid and decoding the record gives the grid again (40_tile_decode.md R108). -/
theorem tileIndex_gridPlanes (g : Grid) : tileIndex (gridPlaneA g) (gridPlaneB g) = g := by
  refine ext_of_pixels fun r c => BitVec.eq_of_toNat_eq ?_
  rw [tileIndex_get, pixidx_toNat, bit_gridPlaneA, bit_gridPlaneB]
  omega

/-- Decoding a record and encoding its grid gives both channels again (40_tile_decode.md R108). -/
theorem gridPlanes_tileIndex (A B : Plane) : gridPlaneA (tileIndex A B) = A ∧ gridPlaneB (tileIndex A B) = B := by
  have hindex : ∀ r c : Fin 8, (tileIndex A B)[r][c].toNat = bit A[r] (7 - c.val) + 2 * bit B[r] (7 - c.val) :=
    fun r c => by rw [tileIndex_get, pixidx_toNat]
  constructor <;> refine plane_ext fun r => byte_ext_of_bit fun c => ?_
  · have hA := bit_le A[r] (7 - c.val)
    rw [bit_gridPlaneA, hindex]
    omega
  · have hA := bit_le A[r] (7 - c.val)
    rw [bit_gridPlaneB, hindex]
    omega

/-- The grid all of whose indices are `v`. -/
def constantGrid (v : BitVec 2) : Grid := Vector.replicate 8 (Vector.replicate 8 v)

theorem constantGrid_get (v : BitVec 2) (r c : Fin 8) : (constantGrid v)[r][c] = v := by simp [constantGrid]

/-- Distinct grids give distinct tiles exactly when the palette's colours are distinct (40_tile_decode.md R108). -/
theorem colourGrid_injective_iff (P : Palette) :
    (∀ g h : Grid, colourGrid P g = colourGrid P h → g = h) ↔ ∀ i j : BitVec 2, lut P i = lut P j → i = j := by
  constructor
  · intro hgrid i j hij
    have heq : colourGrid P (constantGrid i) = colourGrid P (constantGrid j) :=
      ext_of_pixels fun r c => by simp only [colourGrid_get, constantGrid_get, hij]
    rw [← constantGrid_get i 0 0, hgrid _ _ heq, constantGrid_get]
  · intro hlut g h heq
    refine ext_of_pixels fun r c => hlut _ _ ?_
    rw [← colourGrid_get, heq, colourGrid_get]

/-- Settles O5. -/
theorem gridAndRecordCorrespond : Obligations.GridAndRecordCorrespond :=
  ⟨tileIndex_gridPlanes, gridPlanes_tileIndex, colourGrid_injective_iff⟩

/-- Settles O8: the record of the grid with `v` everywhere has index `v` in every column. -/
theorem everyIndexOccursAndNoOther : Obligations.EveryIndexOccursAndNoOther := by
  intro c
  refine ⟨fun a b => by omega, fun v => ⟨(gridPlaneA (constantGrid v))[0], (gridPlaneB (constantGrid v))[0], ?_⟩⟩
  have hgrid := tileIndex_get (gridPlaneA (constantGrid v)) (gridPlaneB (constantGrid v)) 0 c
  rw [tileIndex_gridPlanes, constantGrid_get] at hgrid
  exact hgrid.symm

/-! ### The LUT and TDECODE -/

/-- Settles O10. -/
theorem lutReadsThePaletteEntry : Obligations.LutReadsThePaletteEntry := by
  intro idx s
  simp only [exec, execLut, lut_eq]

/-- Settles O11. -/
theorem tdecodeGivesTheColourGrid : Obligations.TdecodeGivesTheColourGrid := by
  intro A B s hplanes
  have hA : allValues s.cha = some A := allValues_eq_some.2 fun r => (hplanes r).1
  have hB : allValues s.chb = some B := allValues_eq_some.2 fun r => (hplanes r).2
  refine ⟨tdecode A B s.pal, by simp only [exec, execTdecode, hA, hB], fun r c => ⟨?_, tileIndex_get A B r c⟩⟩
  rw [tdecode_get, lut_eq]

end Sys2Proof.Machine
end

section
/-!
PROOFS, 41_raster_compose.md R120 to R125, R130: placing a tile (O16, O18), and the FETCH and the EMIT step by themselves (O19,
O20, O21).
-/
namespace Sys2Proof.Machine

open Sys2Proof

/-! ### A tile and its pixels -/

/-- Settles O16. -/
theorem tplaceWritesItsRectangle : Obligations.TplaceWritesItsRectangle := by
  intro n t s hst hn
  exact ⟨placeTile n.toNat t s.canvas, if_pos ⟨hst, hn⟩, placeTile_read_same _ _ _, placeTile_read_other _ _ _⟩

/-- Settles O18: tile, row and column of an address, and that they are read back from the address they make. -/
theorem everyAddressIsOneTilePixel : Obligations.EveryAddressIsOneTilePixel := by
  intro a ha
  refine ⟨tileOfAddress a, a / 128 % 8, a % 8, tileOfAddress_lt ha, by omega, by omega, pixelAddress_tileOfAddress a, ?_⟩
  rintro n r c - hr hc rfl
  obtain ⟨htile, hrow, hcolumn⟩ := pixelAddress_fields (n := n) hr hc
  exact ⟨htile.symm, hrow.symm, hcolumn.symm⟩

/-! ### The FETCH step -/

/-- A FETCH step with a byte at the cursor (41_raster_compose.md R124). -/
theorem exec_fetchStep_byte {s : State} {v : Byte} (hr : s.fetchReady) (hv : s.src[s.scur]? = some v) :
    exec .fetchStep s = .next (s.advanceCursor.takePlaneByte v).closeRecord :=
  (blockStep_fetch hr.1).symm.trans (blockStep_fetch_byte hr hv)

/-- The new value of `BC` is 16 exactly at the sixteenth byte. -/
theorem bc_add_one_eq_sixteen_iff {b : BitVec 5} (hb : b.toNat ≤ 15) : b + 1 = 16 ↔ b.toNat = 15 := by
  rw [← BitVec.toNat_inj, toNat_bc_add_one (by omega)]
  simp

/-- Storing a byte as one update, plane by plane. -/
theorem State.takePlaneByte_eq (v : Byte) (s : State) :
    s.takePlaneByte v = { s with
      cha := if s.bc.toNat < 8 then s.cha.setIfInBounds s.bc.toNat (some v) else s.cha
      chb := if s.bc.toNat < 8 then s.chb else s.chb.setIfInBounds (s.bc.toNat - 8) (some v)
      bc := s.bc + 1 } := by
  unfold State.takePlaneByte
  split <;> rfl

theorem State.closeRecord_eq (s : State) : s.closeRecord = { s with st := if s.bc = 16 then .emit else s.st } := by
  unfold State.closeRecord
  split <;> rfl

/-- Settles O19. -/
theorem fetchStepStoresOneByte : Obligations.FetchStepStoresOneByte := by
  intro s v hst hbc htn hv
  have hnext : BitVec.ofNat 5 (s.bc.toNat + 1) = s.bc + 1 := by simp [BitVec.ofNat_add]
  rw [exec_fetchStep_byte ⟨hst, hbc, htn⟩ hv, State.takePlaneByte_eq, State.closeRecord_eq]
  simp only [State.advanceCursor, bc_add_one_eq_sixteen_iff hbc, hnext, hst]

/-- Settles O20. -/
theorem fetchStepAtEndOfStreamFaults : Obligations.FetchStepAtEndOfStreamFaults := by
  intro s hst hbc htn hend
  exact (blockStep_fetch hst).symm.trans (blockStep_fetch_end ⟨hst, hbc, htn⟩ hend)

/-! ### The EMIT step -/

/-- Counting a tile as one update. -/
theorem State.advanceTile_eq (s : State) :
    s.advanceTile = { s with
      tn := s.tn + 1, bc := 0
      cvv := if s.tn.toNat + 1 = 512 then true else s.cvv
      st := if s.tn.toNat + 1 = 512 then .idle else .fetch } := by
  unfold State.advanceTile
  split <;> rfl

/-- Settles O21: what TPLACE of the decoded tile writes, and the count that follows it. -/
theorem emitStepPlacesAndCountsATile : Obligations.EmitStepPlacesAndCountsATile := by
  intro A B s hst hbc htn hplanes
  have hA : allValues s.cha = some A := allValues_eq_some.2 fun r => (hplanes r).1
  have hB : allValues s.chb = some B := allValues_eq_some.2 fun r => (hplanes r).2
  have hexec : exec .emitStep s = .next (s.emitTile A B) :=
    (blockStep_emit hst).symm.trans (blockStep_emit_values ⟨hst, hbc, htn⟩ hA hB)
  have hnext : BitVec.ofNat 10 (s.tn.toNat + 1) = s.tn + 1 := by simp [BitVec.ofNat_add]
  have hlast : s.tn.toNat + 1 = 512 ↔ s.tn.toNat = 511 := by omega
  refine ⟨placeTile s.tn.toNat (tdecode A B s.pal) s.canvas, ?_, fun r c => ?_, placeTile_read_other _ _ _⟩
  · rw [hexec, State.emitTile, State.advanceTile_eq]
    simp only [hlast, hnext]
  · rw [placeTile_read_same, tdecode_get, lut_eq]

end Sys2Proof.Machine
end

section
/-!
PROOFS, 41_raster_compose.md R123 to R132: a bank decode tile by tile. Where a tile starts and the stream holds its record, 17
steps and one round of the whole-operation form both lead to `State.tileDone`; where it does not, both end in the fault (O26).
The state after `k` tiles is that map applied `k` times (O22), and its canvas is the closed form (O23), which depends on the
bytes and the palette alone (O25).
-/
namespace Sys2Proof.Machine

open Sys2Proof

/-! ### One tile -/

/-- The 8 bytes of a plane that stands at offset `k` of the stream. -/
def planeAt (src : List Byte) (k : Nat) : Plane := Vector.ofFn fun r => src.getD (k + r.val) 0

/-- `s` with the tile record at the cursor taken, its tile placed at `TN` and counted (41_raster_compose.md R123). -/
def State.tileDone (s : State) : State :=
  { s.planesTaken 16 with
    canvas := placeTile s.tn.toNat (tdecode (planeAt s.src s.scur) (planeAt s.src (s.scur + 8)) s.pal) s.canvas
    tn := s.tn + 1, bc := 0, st := .fetch }

/-- What the last EMIT step does beside its tile: the image is complete (41_raster_compose.md R125). -/
def State.closeBank (s : State) : State := if s.tn.toNat = 512 then { s with cvv := true, st := .idle } else s

theorem State.closeBank_of_le {s : State} (htn : s.tn.toNat ≤ 511) : s.closeBank = s := if_neg (by omega)

theorem State.closeBank_last {s : State} (htn : s.tn.toNat = 512) : s.closeBank = { s with cvv := true, st := .idle } :=
  if_pos htn

/-- A register array read from the stream holds the plane that stands there. -/
theorem allValues_filled {src : List Byte} {k n : Nat} (hn : 8 ≤ n) (hlen : k + 8 ≤ src.length)
    (w : Vector (Option Byte) 8) : allValues (filled n (fun r => src[k + r]?) w) = some (planeAt src k) := by
  refine allValues_eq_some.2 fun r => ?_
  have hin : k + r.val < src.length := by omega
  simp [filled_of_le _ w hn, planeAt, hin]

/-- The FETCH steps of a tile whose record the stream holds. -/
theorem runSteps_planesTaken {s : State} (hag : s.agenda = []) (hst : s.st = .fetch) (hbc : s.bc = 0) (htn : s.tn.toNat ≤ 511)
    {j : Nat} (hj : j ≤ 16) (hlen : s.scur + j ≤ s.src.length) : runSteps j s = .next (s.planesTaken j).closeRecord := by
  induction j with
  | zero => rw [State.planesTaken_zero hbc, State.closeRecord_of_lt (by simp [hbc])]; rfl
  | succ j ih =>
    have hcount : (BitVec.ofNat 5 j).toNat = j := toNat_ofNat_five (by omega)
    have hv : s.src[s.scur + j]? = some s.src[s.scur + j] := List.getElem?_eq_getElem (by omega)
    have hready : (s.planesTaken j).fetchReady := ⟨hst, hcount.trans_le (by omega), htn⟩
    have hstep : step (s.planesTaken j) = .next (s.planesTaken (j + 1)).closeRecord := by
      rw [step_empty (s := s.planesTaken j) hag, blockStep_fetch_byte hready hv, State.planesTaken_succ (by omega) hv]
    have hrun := ih (by omega) (by omega)
    rw [State.closeRecord_of_lt (hcount.trans_lt (by omega))] at hrun
    rw [runSteps_add 1 hrun, runSteps_succ hstep]
    rfl

/-- The EMIT step on the planes just read. -/
theorem emitTile_planesTaken {s : State} (htn : s.tn.toNat ≤ 511) :
    (s.planesTaken 16).closeRecord.emitTile (planeAt s.src s.scur) (planeAt s.src (s.scur + 8)) = s.tileDone.closeBank := by
  have hcount : s.tileDone.tn.toNat = s.tn.toNat + 1 := toNat_tn_add_one htn
  have hread : (s.planesTaken 16).closeRecord = { s.planesTaken 16 with st := .emit } := if_pos rfl
  rw [hread, State.closeBank, hcount]
  simp only [State.emitTile, State.advanceTile, State.tileDone, State.planesTaken]
  exact if_congr Iff.rfl rfl rfl

/-- The 17 steps of a tile whose record the stream holds: 16 FETCH steps and one EMIT step (41_raster_compose.md R127). -/
theorem runSteps_tileDone {s : State} (hag : s.agenda = []) (hst : s.st = .fetch) (hbc : s.bc = 0) (htn : s.tn.toNat ≤ 511)
    (hlen : s.scur + 16 ≤ s.src.length) : runSteps 17 s = .next s.tileDone.closeBank := by
  have hready : (s.planesTaken 16).closeRecord.emitReady := ⟨rfl, rfl, htn⟩
  have hemit := blockStep_emit_values hready (allValues_filled (by omega) (by omega) s.cha)
    (allValues_filled (by omega) (by omega) s.chb)
  rw [emitTile_planesTaken htn] at hemit
  have hstep : step (s.planesTaken 16).closeRecord = .next s.tileDone.closeBank := 
    (step_empty (s := (s.planesTaken 16).closeRecord) hag).trans hemit
  rw [runSteps_add 1 (runSteps_planesTaken hag hst hbc htn (Nat.le_refl 16) hlen), runSteps_succ hstep]
  rfl

/-! ### The whole-operation form -/

theorem State.fetchBytes_of_record {s : State} (hbc : s.bc = 0) (hlen : s.scur + 16 ≤ s.src.length) :
    s.fetchBytes 16 = { s.planesTaken 16 with st := .emit } := by
  simpa only [State.planesTaken_zero hbc] using State.fetchBytes_planesTaken hlen (k := 0) rfl

/-- A stream that ends inside a tile record makes reading it the fault. -/
theorem State.fetchBytes_of_short {s : State} (hbc : s.bc = 0) (hlen : s.src.length < s.scur + 16) :
    s.fetchBytes 16 = (s.planesTaken (s.src.length - s.scur)).raiseFault .bankUnderrun := by
  simpa only [State.planesTaken_zero hbc] using
    State.fetchBytes_planesTaken_short (s := s) rfl (Nat.zero_le _) (by omega) (rfl : 0 + 16 = 16)

/-- One round of the loop of `DECODE_BANK()` with a whole tile record at the cursor (41_raster_compose.md R123). -/
theorem State.decodeTiles_of_record {s : State} {n : Nat} (hbc : s.bc = 0)
    (htn : s.tn.toNat + (n + 1) = 512) (hlen : s.scur + 16 ≤ s.src.length) :
    s.decodeTiles (n + 1) = s.tileDone.decodeTiles n := by
  have hA : allValues (s.planesTaken 16).cha = _ := allValues_filled (by omega) (by omega) s.cha
  have hB : allValues (s.planesTaken 16).chb = _ := allValues_filled (by omega) (by omega) s.chb
  have hn : 512 - (n + 1) = s.tn.toNat := by omega
  simp only [State.decodeTiles, State.fetchBytes_of_record hbc hlen, hA, hB, hn]
  rfl

theorem State.decodeTiles_of_short {s : State} (n : Nat) (hbc : s.bc = 0) (hlen : s.src.length < s.scur + 16) :
    s.decodeTiles (n + 1) = s.fetchBytes 16 := by
  simp only [State.decodeTiles, State.fetchBytes_of_short hbc hlen, State.raiseFault_st]

/-- The steps from the start of any tile, and the rounds of the whole-operation form that are left. The image is completed
after each tile by the one and after the last by the other. -/
theorem runSteps_closeBank {s : State} {n : Nat} (hag : s.agenda = []) (hst : s.st = .fetch) (hbc : s.bc = 0)
    (htn : s.tn.toNat + n = 512) :
    ∃ k, k ≤ 17 * n ∧ runSteps k s.closeBank = .next (s.decodeTiles n) ∧
      ((s.decodeTiles n).st = .idle ∨ (s.decodeTiles n).st = .fault) := by
  induction n generalizing s with
  | zero => exact ⟨0, Nat.le_refl 0, congrArg _ (State.closeBank_last htn), .inl rfl⟩
  | succ n ih =>
    have htn' : s.tn.toNat ≤ 511 := by omega
    rw [State.closeBank_of_le htn']
    rcases Nat.lt_or_ge s.src.length (s.scur + 16) with hshort | hlen
    · have hrun := runSteps_closeRecord (s := s) (n := 16) hag hst htn' (by simp [hbc])
      rw [State.closeRecord_of_lt (by simp [hbc])] at hrun
      rw [State.decodeTiles_of_short n hbc hshort]
      exact ⟨16, by omega, hrun, .inr (by rw [State.fetchBytes_of_short hbc hshort]; rfl)⟩
    · have hcount : s.tileDone.tn.toNat = s.tn.toNat + 1 := toNat_tn_add_one htn'
      obtain ⟨k, hk, hrun, hend⟩ := ih (s := s.tileDone) hag rfl rfl (by omega)
      rw [State.decodeTiles_of_record hbc htn hlen]
      exact ⟨17 + k, by omega, (runSteps_add k (runSteps_tileDone hag hst hbc htn' hlen)).trans hrun, hend⟩

theorem exec_decodeBank_idle {s : State} (hst : s.st = .idle) : exec .decodeBank s = .next s.startDecodeBank := if_pos hst

/-- Settles O26. -/
theorem smallStepsReachTheWholeDecode : Obligations.SmallStepsReachTheWholeDecode := by
  intro s hag hst
  exact ⟨s.startDecodeBank, exec_decodeBank_idle hst,
    runSteps_closeBank (s := s.startDecodeBank) (n := 512) hag rfl rfl rfl⟩

/-! ### The state after some tiles -/

/-- `s` with a DECODE_BANK on it begun and its first `k` tiles done. -/
def State.tilesDone (s : State) : Nat → State
  | 0 => s.startDecodeBank
  | k + 1 => (s.tilesDone k).tileDone

theorem toNat_ofNat_ten {k : Nat} (hk : k ≤ 512) : (BitVec.ofNat 10 k).toNat = k := by
  rw [BitVec.toNat_ofNat, Nat.mod_eq_of_lt (by omega)]

/-- What `k` tiles leave of a state, planes and canvas apart. -/
theorem State.tilesDone_eq (s : State) (k : Nat) : ∃ A B m, s.tilesDone k = { s with
    cha := A, chb := B, canvas := m, cvv := false, scur := s.scur + 16 * k, tn := BitVec.ofNat 10 k, bc := 0, st := .fetch } := by
  induction k with
  | zero => exact ⟨s.cha, s.chb, [], rfl⟩
  | succ k ih =>
    obtain ⟨A, B, m, hk⟩ := ih
    have hcount : BitVec.ofNat 10 k + 1 = BitVec.ofNat 10 (k + 1) := (BitVec.ofNat_add k 1).symm
    simp only [State.tilesDone, hk, State.tileDone, State.planesTaken, hcount]
    exact ⟨_, _, _, rfl⟩

/-- A pixel of the decoded record of its tile is the one of the closed form (41_raster_compose.md R128). -/
theorem tdecode_planeAt (src : List Byte) (cur a : Nat) (P : Palette) :
    ((tdecode (planeAt src (cur + 16 * tileOfAddress a)) (planeAt src (cur + 16 * tileOfAddress a + 8)) P)[a / 128 % 8]'
      (Nat.mod_lt _ (by decide)))[a % 8] = bankPixel (src.drop cur) P (a % 128) (a / 128) := by
  have hcolumn : a % 128 % 8 = a % 8 := by omega
  simp only [tdecode_get_nat, bankPixel, planeAt, Vector.getElem_ofFn, List.getD_eq_getElem?_getD, List.getElem?_drop,
    hcolumn, tileOfAddress, Nat.add_assoc]

/-- The pixels of the first `k` tiles are those of the closed form, and the others hold no value. -/
theorem State.tilesDone_read (s : State) {k : Nat} (hk : k ≤ 512) (a : Nat) :
    (s.tilesDone k).canvas.read a =
      if tileOfAddress a < k then some (bankPixel (s.src.drop s.scur) s.pal (a % 128) (a / 128)) else none := by
  induction k with
  | zero => rfl
  | succ k ih =>
    have hcanvas := ih (by omega)
    obtain ⟨A, B, m, hstate⟩ := s.tilesDone_eq k
    rw [hstate] at hcanvas
    simp only [State.tilesDone, hstate, State.tileDone, placeTile_read, toNat_ofNat_ten (show k ≤ 512 by omega)]
    rcases Nat.lt_trichotomy (tileOfAddress a) k with hlt | rfl | hgt
    · rw [if_neg (by omega), if_pos (by omega), hcanvas, if_pos hlt]
    · rw [if_pos rfl, if_pos (by omega), tdecode_planeAt]
    · rw [if_neg (by omega), if_neg (by omega), hcanvas, if_neg (by omega)]

theorem State.tilesDone_wf (s : State) {k : Nat} (hk : k ≤ 512) : Memory.wf (s.tilesDone k).canvas := by
  induction k with
  | zero => exact Memory.wf_nil
  | succ k ih =>
    have hcanvas := ih (by omega)
    obtain ⟨A, B, m, hstate⟩ := s.tilesDone_eq k
    rw [hstate] at hcanvas
    simp only [State.tilesDone, hstate, State.tileDone, State.planesTaken, toNat_ofNat_ten (show k ≤ 512 by omega)]
    exact placeTile_wf _ hcanvas (by omega)

/-- The steps of the first `k` tiles, the stream holding their records (41_raster_compose.md R127). -/
theorem runSteps_tilesDone {s : State} (hag : s.agenda = []) {k : Nat} (hk : k ≤ 512)
    (hlen : s.scur + 16 * k ≤ s.src.length) : runSteps (17 * k) s.startDecodeBank = .next (s.tilesDone k).closeBank := by
  induction k with
  | zero => rfl
  | succ k ih =>
    have hrun := ih (by omega) (by omega)
    have hcount : (BitVec.ofNat 10 k).toNat ≤ 511 := by rw [toNat_ofNat_ten (by omega)]; omega
    obtain ⟨A, B, m, hstate⟩ := s.tilesDone_eq k
    rw [hstate, State.closeBank_of_le hcount] at hrun
    rw [Nat.mul_succ, runSteps_add 17 hrun, State.tilesDone, hstate]
    exact runSteps_tileDone hag rfl rfl hcount hlen

/-- The steps of a bank decode up to byte `j` of tile `k` (41_raster_compose.md R127). -/
theorem runSteps_inside_bank {s : State} (hag : s.agenda = []) {k j : Nat} (hk : k < 512) (hj : j ≤ 16)
    (hlen : s.scur + 16 * k + j ≤ s.src.length) :
    runSteps (17 * k + j) s.startDecodeBank = .next ((s.tilesDone k).planesTaken j).closeRecord := by
  have hrun := runSteps_tilesDone hag (Nat.le_of_lt hk) (by omega)
  have hcount : (BitVec.ofNat 10 k).toNat ≤ 511 := by rw [toNat_ofNat_ten (by omega)]; omega
  obtain ⟨A, B, m, hstate⟩ := s.tilesDone_eq k
  rw [hstate, State.closeBank_of_le hcount] at hrun
  rw [runSteps_add j hrun, hstate]
  refine runSteps_planesTaken ?_ rfl rfl ?_ hj hlen
  exacts [hag, hcount]

/-! ### The whole bank -/

/-- The state that DECODE_BANK on `s` ends in when the stream holds the bank. -/
def State.bankDone (s : State) : State := { s.tilesDone 512 with cvv := true, st := .idle }

theorem runSteps_bankDone {s : State} (hag : s.agenda = []) (hlen : s.scur + 8192 ≤ s.src.length) :
    runSteps 8704 s.startDecodeBank = .next s.bankDone := by
  have hrun := runSteps_tilesDone hag (Nat.le_refl 512) hlen
  obtain ⟨A, B, m, hstate⟩ := s.tilesDone_eq 512
  rwa [State.closeBank_last (by rw [hstate]; rfl)] at hrun

theorem State.bankDone_eq (s : State) : ∃ A B m, s.bankDone = { s with
    cha := A, chb := B, canvas := m, scur := s.scur + 8192, tn := 512, bc := 0, cvv := true, st := .idle } := by
  obtain ⟨A, B, m, hstate⟩ := s.tilesDone_eq 512
  rw [State.bankDone, hstate]
  exact ⟨A, B, m, rfl⟩

theorem State.bankDone_canvas (s : State) : s.bankDone.canvas = (s.tilesDone 512).canvas := by rw [State.bankDone]

/-- The Bank Image (41_raster_compose.md R128). -/
theorem State.bankDone_read (s : State) {a : Nat} (ha : a < 32768) :
    s.bankDone.canvas.read a = some (bankPixel (s.src.drop s.scur) s.pal (a % 128) (a / 128)) := by
  rw [State.bankDone_canvas, State.tilesDone_read s (Nat.le_refl 512), if_pos (tileOfAddress_lt ha)]

theorem State.bankDone_read_xy (s : State) {x y : Nat} (hx : x < 128) (hy : y < 256) :
    s.bankDone.canvas.read (y * 128 + x) = some (bankPixel (s.src.drop s.scur) s.pal x y) := by
  rw [State.bankDone_read s (by omega), show (y * 128 + x) % 128 = x by omega, show (y * 128 + x) / 128 = y by omega]

theorem State.bankDone_wf (s : State) : Memory.wf s.bankDone.canvas := by
  rw [State.bankDone_canvas]
  exact s.tilesDone_wf (Nat.le_refl 512)

/-- The planes after a bank decode hold the record of tile 511. -/
theorem State.bankDone_planes (s : State) (r : Fin 8) :
    s.bankDone.cha[r] = s.src[s.scur + 8176 + r.val]? ∧ s.bankDone.chb[r] = s.src[s.scur + 8184 + r.val]? := by
  have hr : r.val < 16 := by omega
  obtain ⟨A, B, m, hstate⟩ := s.tilesDone_eq 511
  rw [State.bankDone, State.tilesDone, hstate]
  simp [State.tileDone, State.planesTaken, filled, hr]

/-- Settles O22. -/
theorem decodeBankCompletes : Obligations.DecodeBankCompletes := by
  intro s hag hst hcause hlen
  refine ⟨s.startDecodeBank, s.bankDone, exec_decodeBank_idle hst, runSteps_bankDone hag hlen, fun k j hk hj => ?_, ?_⟩
  · have hrun := runSteps_inside_bank hag hk hj (by omega)
    have hcount : BitVec.ofNat 5 j = 16 ↔ j = 16 := by rw [← BitVec.toNat_inj, toNat_ofNat_five (by omega)]; rfl
    obtain ⟨A, B, m, hstate⟩ := s.tilesDone_eq k
    rw [hstate, State.closeRecord_eq] at hrun
    exact ⟨_, hrun, toNat_ofNat_ten (by omega), toNat_ofNat_five (by omega), if_congr hcount rfl rfl, rfl⟩
  · have hplanes := s.bankDone_planes
    have hread : ∀ x y, x < 128 → y < 256 → _ := fun x y hx hy => s.bankDone_read_xy hx hy
    obtain ⟨A, B, m, hdone⟩ := s.bankDone_eq
    rw [hdone] at hplanes hread ⊢
    exact ⟨rfl, rfl, rfl, rfl, hcause, rfl, rfl, rfl, rfl, rfl, rfl, rfl, rfl, hag, rfl, rfl, rfl, hplanes, hread⟩

/-- Settles O23: the bits of the index are those that PIXIDX adds up. -/
theorem bankImageInClosedForm : Obligations.BankImageInClosedForm := by
  intro s hag hst hlen
  refine ⟨s.startDecodeBank, s.bankDone, exec_decodeBank_idle hst, runSteps_bankDone hag hlen, rfl, fun x y hx hy => ?_⟩
  obtain ⟨a, ha⟩ : ∃ a, s.src[s.scur + (16 * ((y / 8) * 16 + x / 8) + y % 8)]? = some a :=
    ⟨_, List.getElem?_eq_getElem (by omega)⟩
  obtain ⟨b, hb⟩ : ∃ b, s.src[s.scur + (16 * ((y / 8) * 16 + x / 8) + 8 + y % 8)]? = some b :=
    ⟨_, List.getElem?_eq_getElem (by omega)⟩
  have hcolumn : x % 8 < 8 := Nat.mod_lt x (by decide)
  refine ⟨a, b, (pixidx a b ⟨x % 8, hcolumn⟩).toFin, ha, hb, ?_, ?_⟩
  · exact (pixidx_toNat a b ⟨x % 8, hcolumn⟩).trans (by rw [bit_eq, bit_eq])
  · rw [State.bankDone_read_xy s hx hy]
    simp only [bankPixel, List.getD_eq_getElem?_getD, List.getElem?_drop, ha, hb, Option.getD_some, lut_eq]

/-- The closed form reads none but the 8192 bytes of the bank. -/
theorem bankPixel_take (S : List Byte) (P : Palette) {x y : Nat} (hx : x < 128) (hy : y < 256) :
    bankPixel (S.take 8192) P x y = bankPixel S P x y := by
  simp (disch := omega) only [bankPixel, List.getD_eq_getElem?_getD, List.getElem?_take_of_lt]

/-- Settles O25: canvases of the one form are equal when all their pixels are. -/
theorem bankImageDependsOnBytesAndPaletteOnly : Obligations.BankImageDependsOnBytesAndPaletteOnly := by
  intro s s' hag hag' hst hst' hlen hlen' hbytes hpal
  refine ⟨_, _, _, _, exec_decodeBank_idle hst, exec_decodeBank_idle hst', runSteps_bankDone hag hlen,
    runSteps_bankDone hag' hlen', rfl, rfl, Memory.ext_of_read s.bankDone_wf s'.bankDone_wf fun a => ?_⟩
  rcases Nat.lt_or_ge a 32768 with ha | ha
  · rw [State.bankDone_read s ha, State.bankDone_read s' ha, ← bankPixel_take _ _ (by omega) (by omega), hbytes, hpal,
      bankPixel_take _ _ (by omega) (by omega)]
  · rw [Memory.read_past s.bankDone_wf ha, Memory.read_past s'.bankDone_wf ha]

end Sys2Proof.Machine
end

section
/-!
PROOFS, 43_control_commands.md R155, 41_raster_compose.md R132, 10_state.md R10, R32: what a step of block and host runs, turn by
turn (O58), the record turn (O59), and every stop of the model with its name (O60).
-/
namespace Sys2Proof.Machine

open Sys2Proof

/-! ### The sequencer's step and the turns -/

/-- With nothing under way the block's own step changes nothing. -/
theorem blockStep_at_rest {s : State} (hst : s.st = .idle ∨ s.st = .fault) : blockStep s = .next s :=
  hst.elim blockStep_idle blockStep_fault

theorem running_iff {s : State} : s.running = true ↔ s.st = .hdr ∨ s.st = .fetch ∨ s.st = .emit := by
  simp [State.running, or_assoc]

theorem running_at_rest {s : State} (hst : s.st = .idle ∨ s.st = .fault) : s.running = false := by
  rcases hst with hst | hst <;> simp [State.running, hst]

theorem step_block {s : State} {rest : List Turn} (h : s.agenda = .block :: rest) :
    step s = blockStep { s with agenda := rest } :=
  step_turn h (.inl nofun)

theorem step_record {s : State} {rest : List Turn} (h : s.agenda = .record :: rest) :
    step s = recordStep { s with agenda := rest } :=
  step_turn h (.inl nofun)

theorem step_access {s : State} {a : Access} {rest : List Turn} (h : s.agenda = .access a :: rest) :
    step s = runEncoded (.access a) { s with agenda := rest } :=
  step_turn h (.inl nofun)

theorem step_seek {s : State} {offset : Nat} {rest : List Turn} (h : s.agenda = .seek offset :: rest) :
    step s = seek offset { s with agenda := rest } :=
  step_turn h (.inl nofun)

theorem step_seek_busy {s : State} {offset : Nat} {rest : List Turn} (h : s.agenda = .seek offset :: rest)
    (hst : s.st ≠ .idle) : step s = .refused .seekWhileBusy := by
  rw [step_seek h]
  exact if_neg hst

/-- The comparison of a signature that holds its values. -/
theorem compareSignature_values {s : State} {v : Vector Byte 4} (hhdrv : s.hdrv = true) (hsig : ∀ k : Fin 4, s.sig[k] = some v[k]) :
    compareSignature s = exec (.isValidSignature v.toList) s := by
  have hv : allValues s.sig = some v := allValues_eq_some.2 hsig
  simp only [compareSignature, hhdrv, if_true, hv, runEncoded, decode_sig4 (Vector.length_toList (xs := v))]

theorem compareSignature_no_values {s : State} (h : s.hdrv = false ∨ ∃ k : Fin 4, s.sig[k] = none) :
    compareSignature s = .next { s with wire := none } := by
  have hv : (if s.hdrv then allValues s.sig else none) = none := by
    rcases h with h | h
    · rw [h]; rfl
    · rw [allValues_eq_none h, ite_self]
  simp only [compareSignature, hv]

theorem vector_four_toList (v : Vector Byte 4) : v.toList = [v[0], v[1], v[2], v[3]] := by
  refine List.ext_getElem (by simp) fun i hi _ => ?_
  have hi4 : i < 4 := by simpa using hi
  interval_cases i <;> simp

/-- What an access does to a block that is not IDLE: it is refused, or it reads (43_control_commands.md R160, R162). -/
theorem access_busy {a : Access} {s t : State} (hst : s.st ≠ .idle) (h : runEncoded (.access a) s = .next t) :
    t = { s with cerr := t.cerr, rdata := t.rdata, marked := t.marked } := by
  rcases access_cases h with rfl | ⟨d, rfl⟩ | rfl | ⟨hidle, -⟩ | ⟨hidle, -⟩ | ⟨hidle, -⟩
  · rfl
  · rfl
  · rfl
  · exact absurd hidle hst
  · exact absurd hidle hst
  · exact absurd hidle hst

/-- Settles O58. -/
theorem stepRunsTheSequencerOrTheHostsTurn : Obligations.StepRunsTheSequencerOrTheHostsTurn := by
  intro s
  refine ⟨fun hag => ?_, fun rest => ⟨fun hag => ?_, fun offset hag hst => ?_, fun offset hag hst => ?_, fun hag hst => ?_,
    fun hag hst => ?_, fun hag hst => ?_, fun hag hst => ?_, fun hag => ?_, fun hag => ⟨fun v hhdrv hsig => ?_, fun hnone => ?_⟩,
    fun a t hag hst hstep => ?_⟩⟩
  · rw [step_empty hag]
    exact ⟨blockStep_hdr, blockStep_fetch, blockStep_emit, blockStep_at_rest⟩
  · exact step_turn hag (.inl nofun)
  · rw [step_seek hag, seek, if_pos hst]
  · exact step_seek_busy hag hst
  · rw [step_wait_running hag (running_iff.2 (.inl hst)), blockStep_hdr hst]
  · rw [step_wait_running hag (running_iff.2 (.inr (.inl hst))), blockStep_fetch hst]
  · rw [step_wait_running hag (running_iff.2 (.inr (.inr hst))), blockStep_emit hst]
  · exact step_turn hag (.inr (running_at_rest hst))
  · rw [step_block hag]
    exact ⟨fun hst => blockStep_hdr hst, fun hst => blockStep_fetch hst, fun hst => blockStep_emit hst,
      fun hst => blockStep_at_rest hst⟩
  · rw [← vector_four_toList]
    exact (step_turn hag (.inl nofun)).trans (compareSignature_values hhdrv hsig)
  · exact (step_turn hag (.inl nofun)).trans (compareSignature_no_values hnone)
  · rw [step_access hag] at hstep
    exact access_busy (s := { s with agenda := rest }) hst hstep

/-! ### The record turn -/

/-- The bytes from the cursor on that a list is equal to, element by element. -/
theorem State.nextBytes_eq_some {s : State} {bytes : List Byte} (h : ∀ i < bytes.length, s.src[s.scur + i]? = bytes[i]?)
    (hlen : s.scur + bytes.length ≤ s.src.length) : s.nextBytes bytes.length = some bytes := by
  rw [State.nextBytes, if_pos hlen, Option.some.injEq]
  refine List.ext_getElem? fun i => ?_
  rw [List.getElem?_take, List.getElem?_drop]
  split
  case isTrue hi => exact h i hi
  case isFalse hi => exact (List.getElem?_eq_none (by omega)).symm

theorem State.nextBytes_of_short {s : State} {n : Nat} (hlen : s.src.length < s.scur + n) : s.nextBytes n = none :=
  if_neg (by omega)

theorem nextBytes_tile {s : State} {A B : Plane}
    (h : ∀ r : Fin 8, s.src[s.scur + r.val]? = some A[r] ∧ s.src[s.scur + 8 + r.val]? = some B[r]) :
    s.nextBytes 16 = some (A.toList ++ B.toList) := by
  have hlast : s.scur + 8 + 7 < s.src.length := (List.getElem?_eq_some_iff.1 (h 7).2).1
  have hlength : (A.toList ++ B.toList).length = 16 := by simp
  rw [← hlength]
  refine State.nextBytes_eq_some (fun i hi => ?_) (by omega)
  rcases Nat.lt_or_ge i 8 with hA | hB
  · rw [(h ⟨i, hA⟩).1, List.getElem?_append_left (by simpa using hA)]
    simp [hA]
  · have hB8 : i - 8 < 8 := by omega
    have hbyte := (h ⟨i - 8, hB8⟩).2
    rw [show s.scur + 8 + (i - 8) = s.scur + i by omega] at hbyte
    rw [hbyte, List.getElem?_append_right (by simpa using hB)]
    simp [hB8]

theorem nextBytes_hdr {s : State} {v : Vector Byte 4} {p c : Byte} (hsig : ∀ k : Fin 4, s.src[s.scur + k.val]? = some v[k])
    (hprg : s.src[s.scur + 4]? = some p) (hchr : s.src[s.scur + 5]? = some c) :
    s.nextBytes 6 = some (v.toList ++ [p, c]) := by
  have hlast : s.scur + 5 < s.src.length := (List.getElem?_eq_some_iff.1 hchr).1
  have hlength : (v.toList ++ [p, c]).length = 6 := by simp
  rw [← hlength]
  refine State.nextBytes_eq_some (fun i hi => ?_) (by omega)
  have hi6 : i < 6 := by rwa [hlength] at hi
  rw [vector_four_toList]
  interval_cases i
  exacts [hsig 0, hsig 1, hsig 2, hsig 3, hprg, hchr]

/-- Elsewhere than at the start of a record the record grain is that of the block's own steps. -/
theorem recordStep_elsewhere {s : State} (h : s.bc = 0 → s.st ≠ .fetch ∧ s.st ≠ .hdr) : recordStep s = blockStep s := by
  rw [recordStep, if_neg fun hf => (h hf.2).1 hf.1, if_neg fun hh => (h hh.2).2 hh.1]

theorem recordStep_tile {s : State} {A B : Plane} (hst : s.st = .fetch) (hbc : s.bc = 0)
    (h : ∀ r : Fin 8, s.src[s.scur + r.val]? = some A[r] ∧ s.src[s.scur + 8 + r.val]? = some B[r]) :
    recordStep s = exec (.tile A B) s := by
  simp only [recordStep, if_pos (And.intro hst hbc), nextBytes_tile h, runEncoded, decode_tile]

theorem recordStep_tile_short {s : State} (hst : s.st = .fetch) (hbc : s.bc = 0) (hlen : s.src.length < s.scur + 16) :
    recordStep s = exec .tfetch s := by
  simp only [recordStep, if_pos (And.intro hst hbc), State.nextBytes_of_short hlen]

theorem recordStep_hdr {s : State} {v : Vector Byte 4} {p c : Byte} (hst : s.st = .hdr) (hbc : s.bc = 0)
    (hsig : ∀ k : Fin 4, s.src[s.scur + k.val]? = some v[k]) (hprg : s.src[s.scur + 4]? = some p)
    (hchr : s.src[s.scur + 5]? = some c) : recordStep s = exec (.hdr v p c) s := by
  have hfetch : ¬ (s.st = .fetch ∧ s.bc = 0) := by simp [hst]
  simp only [recordStep, if_neg hfetch, if_pos (And.intro hst hbc), nextBytes_hdr hsig hprg hchr, runEncoded, decode_hdr]

theorem recordStep_hdr_short {s : State} (hst : s.st = .hdr) (hbc : s.bc = 0) (hlen : s.src.length < s.scur + 6) :
    recordStep s = exec .hdrStep s := by
  have hfetch : ¬ (s.st = .fetch ∧ s.bc = 0) := by simp [hst]
  simp only [recordStep, if_neg hfetch, if_pos (And.intro hst hbc), State.nextBytes_of_short hlen]

/-- Settles O59. -/
theorem recordTurnRunsTheRecordAtTheCursor : Obligations.RecordTurnRunsTheRecordAtTheCursor := by
  intro s rest hag
  rw [step_record hag]
  refine ⟨fun A B hst hbc h => recordStep_tile hst hbc h, fun hst hbc hlen => recordStep_tile_short hst hbc hlen,
    fun v p c hst hbc hsig hprg hchr => recordStep_hdr hst hbc hsig hprg hchr,
    fun hst hbc hlen => recordStep_hdr_short hst hbc hlen, fun hst hbc => ?_, fun hst hbc => ?_, fun hst => ?_, fun hst => ?_⟩
  · exact (recordStep_elsewhere (s := { s with agenda := rest }) fun h => absurd h hbc).trans (blockStep_fetch hst)
  · exact (recordStep_elsewhere (s := { s with agenda := rest }) fun h => absurd h hbc).trans (blockStep_hdr hst)
  · exact (recordStep_elsewhere fun _ => by simp [hst]).trans (blockStep_emit hst)
  · refine (recordStep_elsewhere fun _ => ?_).trans (blockStep_at_rest hst)
    rcases hst with hst | hst <;> simp [hst]

end Sys2Proof.Machine
end

section
/-!
PROOFS, every stop of the model, its place and its name (O60). `ExecStop` lists the stops of `exec`, one constructor for each;
`State.Stuck` the sequencer states in which the block's own step asks for one of them; `step_outcome` adds the two stops of the
host's turns.
-/
namespace Sys2Proof.Machine

open Sys2Proof

/-! ### The stops of the operations -/

/-- A plane byte holds no value (10_state.md R10). -/
def State.PlanesLack (s : State) : Prop := ∃ r : Fin 8, s.cha[r] = none ∨ s.chb[r] = none

/-- A tile fetch starts (40_tile_decode.md R101). -/
def State.TileStarts (s : State) : Prop := s.st = .fetch ∧ s.bc = 0 ∧ s.tn.toNat ≤ 511

theorem State.tileStarts_iff {s : State} : s.fetchReady ∧ s.bc = 0 ↔ s.TileStarts :=
  ⟨fun ⟨⟨hst, _, htn⟩, hbc⟩ => ⟨hst, hbc, htn⟩, fun ⟨hst, hbc, htn⟩ => fetchReady_at_start hst hbc htn⟩

theorem State.PlanesLack.allValues {s : State} (h : s.PlanesLack) : allValues s.cha = none ∨ allValues s.chb = none := by
  obtain ⟨r, hr | hr⟩ := h
  · exact .inl (allValues_eq_none ⟨r, hr⟩)
  · exact .inr (allValues_eq_none ⟨r, hr⟩)

/-- The plane buffers hold two planes, or one of their bytes holds no value. -/
theorem State.planes_cases (s : State) : (∃ A B, allValues s.cha = some A ∧ allValues s.chb = some B) ∨ s.PlanesLack := by
  by_cases h : s.PlanesLack
  · exact .inr h
  · have hvalues : ∀ r : Fin 8, s.cha[r].isSome ∧ s.chb[r].isSome := fun r => by
      simp only [Option.isSome_iff_ne_none]
      exact not_or.1 fun hr => h ⟨r, hr⟩
    obtain ⟨A, hA⟩ := allValues_isSome fun r => (hvalues r).1
    obtain ⟨B, hB⟩ := allValues_isSome fun r => (hvalues r).2
    exact .inl ⟨A, B, hA, hB⟩

/-- Where `exec` stops, and under what name (log 10, 11). -/
inductive ExecStop (s : State) : Instr → Refusal → Prop where
  | fetchStep (h : ¬ s.fetchReady) : ExecStop s .fetchStep (.notEnabled "FETCH_STEP")
  | emitStep (h : ¬ s.emitReady) : ExecStop s .emitStep (.notEnabled "EMIT_STEP")
  | emitNoValue (hr : s.emitReady) (h : s.PlanesLack) : ExecStop s .emitStep (.noValue "EMIT_STEP")
  | hdrStep (h : ¬ s.hdrReady) : ExecStop s .hdrStep (.notEnabled "HDR_STEP")
  | tfetch (h : ¬ s.TileStarts) : ExecStop s .tfetch (.notEnabled "TFETCH")
  | tile (A B : Plane) (h : ¬ s.TileStarts) : ExecStop s (.tile A B) (.notEnabled "TILE")
  | hdr (v : Vector Byte 4) (p c : Byte) (h : ¬ (s.st = .hdr ∧ s.bc = 0)) : ExecStop s (.hdr v p c) (.notEnabled "HDR")
  | tplace (n : BitVec 10) (t : Tile) (h : ¬ (s.st = .emit ∧ n.toNat ≤ 511)) :
      ExecStop s (.tplace n t) (.notEnabled "TPLACE")
  | tdecode (h : s.PlanesLack) : ExecStop s .tdecode (.noValue "TDECODE")

theorem exec_tdecode_no_value {s : State} (h : s.PlanesLack) : exec .tdecode s = .refused (.noValue "TDECODE") := by
  simp only [exec, execTdecode]
  rcases h.allValues with h | h <;> rw [h]
  cases allValues s.cha <;> rfl

theorem exec_emitStep_no_value {s : State} (hr : s.emitReady) (h : s.PlanesLack) :
    exec .emitStep s = .refused (.noValue "EMIT_STEP") := by
  simp only [exec, execEmitStep, if_pos hr]
  rcases h.allValues with h | h <;> rw [h]
  cases allValues s.cha <;> rfl

theorem ExecStop.exec_eq {s : State} {i : Instr} {r : Refusal} (h : ExecStop s i r) : exec i s = .refused r := by
  cases h with
  | fetchStep h | emitStep h | hdrStep h | hdr _ _ _ h | tplace _ _ h => exact if_neg h
  | tfetch h | tile _ _ h => exact if_neg (mt State.tileStarts_iff.1 h)
  | emitNoValue hr h => exact exec_emitStep_no_value hr h
  | tdecode h => exact exec_tdecode_no_value h

/-- The operation answers a next state everywhere else. -/
theorem exec_next_or_stop (i : Instr) (s : State) : (∃ t, exec i s = .next t) ∨ ∃ r, ExecStop s i r := by
  cases i with
  | nop | reserved03 | reserved04to07 | reserved08to0F | reserved10to1F | reserved20to3F | reserved40to7F | reserved80toFF
  | rdStatus | rdTn | rdBc | rdPal | rdSig | rdPrg | rdChr | rdSigok | rdpix | isValidSignature | pixidx | lut | reset =>
    exact .inl ⟨_, rfl⟩
  | readHeader => simp only [exec, execReadHeader]; split <;> exact .inl ⟨_, rfl⟩
  | decodeBank => simp only [exec, execDecodeBank]; split <;> exact .inl ⟨_, rfl⟩
  | ldpal => simp only [exec, execLdpal]; split <;> exact .inl ⟨_, rfl⟩
  | tile A B =>
    by_cases h : s.TileStarts
    · exact .inl ⟨_, if_pos (State.tileStarts_iff.2 h)⟩
    · exact .inr ⟨_, .tile A B h⟩
  | tfetch =>
    by_cases h : s.TileStarts
    · exact .inl ⟨_, if_pos (State.tileStarts_iff.2 h)⟩
    · exact .inr ⟨_, .tfetch h⟩
  | hdr v p c =>
    by_cases h : s.st = .hdr ∧ s.bc = 0
    · exact .inl ⟨_, if_pos h⟩
    · exact .inr ⟨_, .hdr v p c h⟩
  | tplace n t =>
    by_cases h : s.st = .emit ∧ n.toNat ≤ 511
    · exact .inl ⟨_, if_pos h⟩
    · exact .inr ⟨_, .tplace n t h⟩
  | tdecode =>
    rcases s.planes_cases with ⟨A, B, hA, hB⟩ | h
    · exact .inl ⟨_, by simp only [exec, execTdecode, hA, hB]; rfl⟩
    · exact .inr ⟨_, .tdecode h⟩
  | fetchStep =>
    by_cases h : s.fetchReady
    · simp only [exec, execFetchStep, if_pos h]; split <;> exact .inl ⟨_, rfl⟩
    · exact .inr ⟨_, .fetchStep h⟩
  | hdrStep =>
    by_cases h : s.hdrReady
    · simp only [exec, execHdrStep, if_pos h]; split <;> exact .inl ⟨_, rfl⟩
    · exact .inr ⟨_, .hdrStep h⟩
  | emitStep =>
    by_cases hr : s.emitReady
    · rcases s.planes_cases with ⟨A, B, hA, hB⟩ | h
      · exact .inl ⟨_, by simp only [exec, execEmitStep, if_pos hr, hA, hB]; rfl⟩
      · exact .inr ⟨_, .emitNoValue hr h⟩
    · exact .inr ⟨_, .emitStep hr⟩

/-! ### The stops of a step -/

/-- The sequencer states in which the block's own step is not enabled, or reads a plane byte that holds no value; the
invariants of 10_state.md R32 rule them out. -/
def State.Stuck (s : State) : Prop :=
  (s.st = .fetch ∧ ¬ (s.bc.toNat ≤ 15 ∧ s.tn.toNat ≤ 511)) ∨ (s.st = .hdr ∧ 5 < s.bc.toNat) ∨
  (s.st = .emit ∧ (¬ (s.bc = 16 ∧ s.tn.toNat ≤ 511) ∨ s.PlanesLack))

/-- The answer is a next state, or `s` is stuck and the answer is a refusal, but not that of a record of a wrong length. -/
def NextOrStuck (s : State) (answer : Answer) : Prop :=
  (∃ t, answer = .next t) ∨ s.Stuck ∧ ∃ r, answer = .refused r ∧ ∀ n, r ≠ .badRecord n

theorem exec_nextOrStuck {i : Instr} {s : State} (h : ∀ r, ExecStop s i r → s.Stuck) : NextOrStuck s (exec i s) := by
  rcases exec_next_or_stop i s with hnext | ⟨r, hr⟩
  · exact .inl hnext
  · exact .inr ⟨h r hr, r, hr.exec_eq, by cases hr <;> exact nofun⟩

theorem blockStep_nextOrStuck (s : State) : NextOrStuck s (blockStep s) := by
  cases hst : s.st with
  | idle => exact .inl ⟨s, blockStep_idle hst⟩
  | fault => exact .inl ⟨s, blockStep_fault hst⟩
  | hdr =>
    rw [blockStep_hdr hst]
    refine exec_nextOrStuck fun r hr => ?_
    cases hr with
    | hdrStep h => exact .inr (.inl ⟨hst, Nat.lt_of_not_le fun hbc => h ⟨hst, hbc⟩⟩)
  | fetch =>
    rw [blockStep_fetch hst]
    refine exec_nextOrStuck fun r hr => ?_
    cases hr with
    | fetchStep h => exact .inl ⟨hst, fun hready => h ⟨hst, hready⟩⟩
  | emit =>
    rw [blockStep_emit hst]
    refine exec_nextOrStuck fun r hr => .inr (.inr ⟨hst, ?_⟩)
    cases hr with
    | emitStep h => exact .inl fun hready => h ⟨hst, hready⟩
    | emitNoValue _ h => exact .inr h

theorem State.nextBytes_length {s : State} {n : Nat} {bytes : List Byte} (h : s.nextBytes n = some bytes) :
    bytes.length = n := by
  simp only [State.nextBytes] at h
  split at h <;> cases h
  simp
  omega

theorem recordStep_nextOrStuck (s : State) : NextOrStuck s (recordStep s) := by
  unfold recordStep
  split
  case isTrue hstart =>
    have hstuck : ¬ s.TileStarts → s.Stuck := fun h => .inl ⟨hstart.1, fun hready => h ⟨hstart.1, hstart.2, hready.2⟩⟩
    split
    next bytes hbytes =>
      simp only [runEncoded, decode, if_pos (State.nextBytes_length hbytes)]
      exact exec_nextOrStuck fun r hr => by cases hr with | tile _ _ h => exact hstuck h
    next => exact exec_nextOrStuck fun r hr => by cases hr with | tfetch h => exact hstuck h
  case isFalse =>
    split
    case isTrue hstart =>
      split
      next bytes hbytes =>
        simp only [runEncoded, decode, if_pos (State.nextBytes_length hbytes)]
        exact exec_nextOrStuck fun r hr => by cases hr with | hdr _ _ _ h => exact absurd hstart h
      next =>
        rw [← blockStep_hdr hstart.1]
        exact blockStep_nextOrStuck s
    case isFalse => exact blockStep_nextOrStuck s

theorem compareSignature_next (s : State) : ∃ t, compareSignature s = .next t := by
  unfold compareSignature
  split
  next v _ =>
    rw [runEncoded, decode_sig4 (Vector.length_toList (xs := v))]
    exact ⟨_, rfl⟩
  next => exact ⟨_, rfl⟩

theorem step_readPixel_past {s : State} {a : Nat} {rest : List Turn} (h : s.agenda = .access (.readPixel a) :: rest)
    (ha : 32768 ≤ a) : step s = .fault (.noSuchPixel a) := by
  rw [step_access h]
  simp only [runEncoded, decode, decodeAccess, if_neg (Nat.not_lt.2 ha), onReject]

/-- A step has a next state, or is one of the two stops of the host's turns, or is asked for in a stuck state. -/
theorem step_outcome (s : State) :
    NextOrStuck s (step s) ∨
    (∃ a rest, s.agenda = .access (.readPixel a) :: rest ∧ 32768 ≤ a ∧ step s = .fault (.noSuchPixel a)) ∨
    (∃ offset rest, s.agenda = .seek offset :: rest ∧ s.st ≠ .idle ∧ step s = .refused .seekWhileBusy) := by
  cases hag : s.agenda with
  | nil => exact .inl (by rw [step_empty hag]; exact blockStep_nextOrStuck s)
  | cons x rest =>
    cases x with
    | access a =>
      by_cases hpast : ∃ n, a = .readPixel n ∧ 32768 ≤ n
      · obtain ⟨n, rfl, hn⟩ := hpast
        exact .inr (.inl ⟨n, rest, rfl, hn, step_readPixel_past hag hn⟩)
      · rw [step_access hag]
        exact .inl (.inl (access_next (fun n hn => Nat.lt_of_not_le fun hle => hpast ⟨n, hn, hle⟩) _))
    | reset => exact .inl (.inl ⟨_, step_turn hag (.inl nofun)⟩)
    | seek offset =>
      by_cases hst : s.st = .idle
      · exact .inl (.inl ⟨_, (step_seek hag).trans (if_pos hst)⟩)
      · exact .inr (.inr ⟨offset, rest, rfl, hst, step_seek_busy hag hst⟩)
    | wait =>
      cases hrun : s.running with
      | true => exact .inl (by rw [step_wait_running hag hrun]; exact blockStep_nextOrStuck s)
      | false => exact .inl (.inl ⟨_, step_turn hag (.inr hrun)⟩)
    | block => exact .inl (by rw [step_block hag]; exact blockStep_nextOrStuck { s with agenda := rest })
    | record => exact .inl (by rw [step_record hag]; exact recordStep_nextOrStuck { s with agenda := rest })
    | compare =>
      obtain ⟨t, ht⟩ := compareSignature_next { s with agenda := rest }
      exact .inl (.inl ⟨t, (step_turn hag (.inl nofun)).trans ht⟩)

/-- Settles O60. -/
theorem everyStopHasItsPlaceAndItsName : Obligations.EveryStopHasItsPlaceAndItsName := by
  refine ⟨fun s rest => ⟨fun a hag ha => step_readPixel_past hag ha, fun offset hag hst => step_seek_busy hag hst⟩,
    fun e n s he => by simp only [runEncoded, he, onReject], fun s n hbad => ?_, fun s => ?_, fun i s => ?_, fun s => ?_⟩
  · rcases step_outcome s with (⟨t, ht⟩ | ⟨-, r, hr, hne⟩) | ⟨a, rest, -, -, ha⟩ | ⟨offset, rest, -, -, hseek⟩
    · rw [ht] at hbad; cases hbad
    · rw [hr] at hbad; cases hbad; exact hne n rfl
    · rw [ha] at hbad; cases hbad
    · rw [hseek] at hbad; cases hbad
  · exact ⟨fun h => (ExecStop.fetchStep h).exec_eq, fun h => (ExecStop.emitStep h).exec_eq,
      fun h => (ExecStop.hdrStep h).exec_eq,
      fun h => ⟨(ExecStop.tfetch h).exec_eq, fun A B => (ExecStop.tile A B h).exec_eq⟩,
      fun h v p c => (ExecStop.hdr v p c h).exec_eq, fun n t h => (ExecStop.tplace n t h).exec_eq,
      fun h => ⟨(ExecStop.tdecode h).exec_eq, fun hst hbc htn => (ExecStop.emitNoValue ⟨hst, hbc, htn⟩ h).exec_eq⟩⟩
  · rcases exec_next_or_stop i s with hnext | ⟨r, hstop⟩
    · exact .inl hnext
    · refine .inr ?_
      cases hstop with
      | fetchStep h => exact .inl ⟨rfl, h⟩
      | emitStep h => exact .inr (.inl ⟨rfl, h⟩)
      | hdrStep h => exact .inr (.inr (.inl ⟨rfl, h⟩))
      | tfetch h => exact .inr (.inr (.inr (.inl ⟨.inl rfl, h⟩)))
      | tile A B h => exact .inr (.inr (.inr (.inl ⟨.inr ⟨A, B, rfl⟩, h⟩)))
      | hdr v p c h => exact .inr (.inr (.inr (.inr (.inl ⟨⟨v, p, c, rfl⟩, h⟩))))
      | tplace n t h => exact .inr (.inr (.inr (.inr (.inr (.inl ⟨n, t, rfl, h⟩)))))
      | tdecode h => exact .inr (.inr (.inr (.inr (.inr (.inr ⟨.inl rfl, h⟩)))))
      | emitNoValue _ h => exact .inr (.inr (.inr (.inr (.inr (.inr ⟨.inr rfl, h⟩)))))
  · rcases step_outcome s with (hnext | ⟨hstuck, -⟩) | ⟨a, rest, hag, ha, -⟩ | ⟨offset, rest, hag, hst, -⟩
    · exact .inl hnext
    · exact .inr (.inr (.inr hstuck))
    · exact .inr (.inl ⟨a, rest, hag, ha⟩)
    · exact .inr (.inr (.inl ⟨offset, rest, hag, hst⟩))

end Sys2Proof.Machine
end

section
/-!
PROOFS, 42_header_validator.md: the HDR step (O27, O28), READ_HEADER in steps and whole, on a stream that holds a header
(O29) and on one that ends inside it (O30), and the comparison of the signature (O32, O33).
-/
namespace Sys2Proof.Machine

open Sys2Proof

/-! ### The HDR step -/

/-- The new value of `BC` is 6 exactly at the sixth byte. -/
theorem bc_add_one_eq_six_iff {b : BitVec 5} (hb : b.toNat ≤ 5) : b + 1 = 6 ↔ b.toNat = 5 := by
  rw [← BitVec.toNat_inj, toNat_bc_add_one (by omega)]
  simp

/-- Storing a header byte as one update, register by register. -/
theorem State.takeHeaderByte_eq (v : Byte) (s : State) :
    s.takeHeaderByte v = { s with
      sig := if s.bc.toNat < 4 then s.sig.setIfInBounds s.bc.toNat (some v) else s.sig
      prg := if s.bc.toNat = 4 then some v else s.prg
      chr := if 4 < s.bc.toNat then some v else s.chr
      bc := s.bc + 1 } := by
  rw [State.mk.injEq]
  simp

theorem State.closeHeader_eq (s : State) :
    s.closeHeader = { s with
      hdrv := if s.bc = 6 then true else s.hdrv
      bc := if s.bc = 6 then 0 else s.bc
      st := if s.bc = 6 then .idle else s.st } := by
  unfold State.closeHeader
  split <;> rfl

/-- Settles O27. -/
theorem hdrStepStoresOneByte : Obligations.HdrStepStoresOneByte := by
  intro s v hst hbc hv
  have hnext : BitVec.ofNat 5 (s.bc.toNat + 1) = s.bc + 1 := by simp [BitVec.ofNat_add]
  have hlast : 4 < s.bc.toNat ↔ s.bc.toNat = 5 := by omega
  rw [← blockStep_hdr hst, blockStep_hdr_byte ⟨hst, hbc⟩ hv, State.takeHeaderByte_eq, State.closeHeader_eq]
  simp only [State.advanceCursor, bc_add_one_eq_six_iff hbc, hnext, hlast, hst]

/-- An HDR step at or past the end of the stream (42_header_validator.md R141). -/
theorem blockStep_hdr_end {s : State} (hr : s.hdrReady) (hend : s.src.length ≤ s.scur) :
    blockStep s = .next (s.raiseFault .hdrUnderrun) := by
  simp only [blockStep_hdr hr.1, exec, execHdrStep, if_pos hr, State.streamNext_at_end hend]

/-- Settles O28. -/
theorem hdrStepAtEndOfStreamFaults : Obligations.HdrStepAtEndOfStreamFaults := by
  intro s hst hbc hend
  exact (blockStep_hdr hst).symm.trans (blockStep_hdr_end ⟨hst, hbc⟩ hend)

/-! ### READ_HEADER in steps and whole -/

theorem exec_readHeader_idle {s : State} (hst : s.st = .idle) : exec .readHeader s = .next s.startReadHeader := if_pos hst

/-- Reading `n + 1` header bytes with one there. -/
theorem State.headerBytes_succ {s : State} {v : Byte} (n : Nat) (h : s.src[s.scur]? = some v) :
    s.headerBytes (n + 1) = (s.advanceCursor.takeHeaderByte v).headerBytes n := by
  simp only [State.headerBytes, State.streamNext_of_byte h]

/-- Reading a header byte at the end of the stream is the fault. -/
theorem State.headerBytes_at_end {s : State} (n : Nat) (h : s.src.length ≤ s.scur) :
    s.headerBytes (n + 1) = s.raiseFault .hdrUnderrun := by
  simp only [State.headerBytes, State.streamNext_at_end h]

theorem State.closeHeader_of_lt {s : State} (hbc : s.bc.toNat < 6) : s.closeHeader = s :=
  if_neg fun h => by simp [h] at hbc

/-- The HDR steps from any byte of a header to its end, and the same bytes read in a row. The header is closed after each
byte by the one and after the last by the other. -/
theorem runSteps_closeHeader {s : State} {n : Nat} (hag : s.agenda = []) (hst : s.st = .hdr) (hn : s.bc.toNat + n = 6) :
    runSteps n s.closeHeader = .next (s.headerBytes n) := by
  induction n generalizing s with
  | zero => rfl
  | succ n ih =>
    have hready : s.hdrReady := ⟨hst, by omega⟩
    rw [State.closeHeader_of_lt (by omega)]
    rcases Nat.lt_or_ge s.scur s.src.length with hin | hend
    · have hv : s.src[s.scur]? = some s.src[s.scur] := List.getElem?_eq_getElem hin
      have hcount : (s.advanceCursor.takeHeaderByte s.src[s.scur]).bc.toNat + n = 6 := by
        rw [State.takeHeaderByte_bc, State.advanceCursor_bc, toNat_bc_add_one (by omega)]
        omega
      rw [runSteps_succ ((step_empty hag).trans (blockStep_hdr_byte hready hv)), State.headerBytes_succ n hv]
      exact ih (by simpa using hag) (by simpa using hst) hcount
    · rw [runSteps_succ ((step_empty hag).trans (blockStep_hdr_end hready hend)), State.headerBytes_at_end n hend]
      exact runSteps_fault (s := s.raiseFault .hdrUnderrun) hag rfl n

/-- Six HDR steps are one `READ_HEADER()`, whether or not the stream ends among them (42_header_validator.md R141). -/
theorem runSteps_readHeaderWhole {s : State} (hag : s.agenda = []) :
    runSteps 6 s.startReadHeader = .next s.startReadHeader.readHeaderWhole :=
  runSteps_closeHeader (s := s.startReadHeader) hag rfl rfl

/-- Settles O29. -/
theorem readHeaderCompletes : Obligations.ReadHeaderCompletes := by
  intro s hag hst hlen
  have hsig : ∀ k : Fin 4, s.src[s.scur + k.val]? = some (s.src[s.scur + k.val]'(by omega)) :=
    fun k => List.getElem?_eq_getElem _
  have hprg : s.src[s.scur + 4]? = some (s.src[s.scur + 4]'(by omega)) := List.getElem?_eq_getElem _
  have hchr : s.src[s.scur + 5]? = some (s.src[s.scur + 5]'(by omega)) := List.getElem?_eq_getElem _
  refine ⟨s.startReadHeader, exec_readHeader_idle hst, ?_, runSteps_readHeaderWhole hag⟩
  rw [runSteps_header_record (s := s.startReadHeader) hag rfl rfl hlen]
  simp only [State.startReadHeader, hsig, hprg, hchr, hst]

/-- The steps of a header read on a stream that ends inside the header: one for each byte there is, and the one that raises
the fault (42_header_validator.md R144). -/
theorem runSteps_header_short {s : State} (hag : s.agenda = []) (hst : s.st = .hdr) (hbc : s.bc = 0) {m : Nat}
    (hm : m = s.src.length - s.scur) (hshort : m < 6) :
    runSteps (m + 1) s = .next ((s.headerTaken m).raiseFault .hdrUnderrun) := by
  have htaken : runSteps m s = .next (s.headerTaken m) := by
    rcases Nat.eq_zero_or_pos m with rfl | hpos
    · rw [State.headerTaken_zero hbc]; rfl
    · exact runSteps_headerTaken hag hst hbc hshort (by omega)
  have hready : (s.headerTaken m).hdrReady := ⟨hst, (toNat_ofNat_five (by omega)).trans_le (by omega)⟩
  have hend : s.src.length ≤ s.scur + m := by omega
  rw [runSteps_add 1 htaken, runSteps_succ ((step_empty (s := s.headerTaken m) hag).trans (blockStep_hdr_end hready hend))]
  rfl

/-- Settles O30: the block stays in FAULT for what is left of the six steps that are the whole operation. -/
theorem shortHeaderFaults : Obligations.ShortHeaderFaults := by
  intro s hag hst hshort
  obtain ⟨m, hm⟩ : ∃ m, m = s.src.length - s.scur := ⟨_, rfl⟩
  rw [← hm] at hshort ⊢
  have hrun : runSteps (m + 1) s.startReadHeader = .next ((s.startReadHeader.headerTaken m).raiseFault .hdrUnderrun) :=
    runSteps_header_short (s := s.startReadHeader) hag rfl rfl hm hshort
  have hwhole : (s.startReadHeader.headerTaken m).raiseFault .hdrUnderrun = s.startReadHeader.readHeaderWhole := by
    have hstay := runSteps_fault (s := (s.startReadHeader.headerTaken m).raiseFault .hdrUnderrun) hag rfl (5 - m)
    have hsix := runSteps_readHeaderWhole hag
    rw [show 6 = m + 1 + (5 - m) by omega, runSteps_add _ hrun] at hsix
    exact Host.Outcome.next.inj (hstay.symm.trans hsix)
  refine ⟨s.startReadHeader, _, exec_readHeader_idle hst, hrun, hwhole, rfl, rfl, toNat_ofNat_five (by omega), rfl,
    fun k => ?_, rfl, rfl, rfl, rfl, Memory.read_nil, rfl, rfl, rfl, rfl, rfl⟩
  simp

/-! ### The comparison of the signature -/

theorem isValidSignature_iff {bytes : List Byte} : isValidSignature bytes = true ↔ bytes = [0x4E, 0x45, 0x53, 0x1A] :=
  beq_iff_eq

/-- SIGOK of a completed header read (10_state.md R22). -/
theorem State.sigok_eq_some {s : State} {v : Vector Byte 4} (hhdrv : s.hdrv = true) (hsig : ∀ k : Fin 4, s.sig[k] = some v[k]) :
    s.sigok = some (isValidSignature v.toList) := by
  rw [State.sigok, if_pos hhdrv, allValues_eq_some.2 hsig]
  rfl

/-- Settles O32. -/
theorem signatureIsTheConstantAndNothingElse : Obligations.SignatureIsTheConstantAndNothingElse := by
  refine ⟨fun bytes s => ⟨_, rfl, ?_⟩, fun v s hhdrv hsig => ⟨_, State.sigok_eq_some hhdrv hsig, ?_⟩⟩
  · have hbit : ∀ b : Bool, BitVec.ofBool b = 1 ↔ b = true := by decide
    exact (hbit _).trans isValidSignature_iff
  · rw [isValidSignature_iff, vector_four_toList]
    simp

/-- Settles O33: SIG holds the four bytes at the cursor. -/
theorem wrongSignatureIsNoFault : Obligations.WrongSignatureIsNoFault := by
  intro s hag hst hcause hlen hwrong
  refine ⟨s.startReadHeader, _, exec_readHeader_idle hst, runSteps_header_record hag rfl rfl hlen, rfl, rfl, ?_, hcause,
    rfl, rfl⟩
  have hbytes : ((s.src.drop s.scur).take 4).length = 4 := by simp; omega
  have hfalse : isValidSignature ((s.src.drop s.scur).take 4) = false :=
    Bool.eq_false_iff.2 fun h => hwrong (isValidSignature_iff.1 h)
  rw [← hfalse]
  refine State.sigok_eq_some (v := ⟨((s.src.drop s.scur).take 4).toArray, hbytes⟩) rfl fun k => ?_
  have hin : s.scur + k.val < s.src.length := by omega
  simp [hin]

end Sys2Proof.Machine
end

section
/-!
PROOFS, 43_control_commands.md: command writes (O34 to O37), palette writes (O38), host reads with a value (O39 to O41) and
without one (O42), refused writes (O43), and the access that a step runs (O57).
-/
namespace Sys2Proof.Machine

open Sys2Proof

/-! ### The access of a step, decoded or rejected -/

theorem runEncoded_of_decode {e : Encoded} {i : Instr} (h : decode e = .ok i) (s : State) : runEncoded e s = exec i s := by
  simp only [runEncoded, h]

theorem runEncoded_of_reject {e : Encoded} {r : Reject} (h : decode e = .error r) (s : State) :
    runEncoded e s = onReject r s := by
  simp only [runEncoded, h]

/-- Settles O57. -/
theorem stepRunsTheDecodedAccess : Obligations.StepRunsTheDecodedAccess := by
  intro s a rest i hag hdecode
  rw [step_access hag, runEncoded_of_decode hdecode]

/-! ### Command and palette writes -/

/-- The actions accepted only in IDLE are refused in every other state (43_control_commands.md R160). -/
theorem exec_readHeader_busy {s : State} (hst : s.st ≠ .idle) : exec .readHeader s = .next s.refuseAction := if_neg hst

theorem exec_decodeBank_busy {s : State} (hst : s.st ≠ .idle) : exec .decodeBank s = .next s.refuseAction := if_neg hst

theorem exec_ldpal_busy {s : State} (hst : s.st ≠ .idle) (i : BitVec 2) (v : Color) :
    exec (.ldpal i v) s = .next s.refuseAction := if_neg hst

theorem exec_ldpal_idle {s : State} (hst : s.st = .idle) (i : BitVec 2) (v : Color) :
    exec (.ldpal i v) s = .next { s with pal := s.pal.setIfInBounds i.toNat v } := if_pos hst

/-- Settles O35. -/
theorem readHeaderStartsOrIsRefused : Obligations.ReadHeaderStartsOrIsRefused :=
  fun _ => ⟨exec_readHeader_idle, exec_readHeader_busy⟩

/-- Settles O36. -/
theorem decodeBankStartsOrIsRefused : Obligations.DecodeBankStartsOrIsRefused :=
  fun s => ⟨fun hst => ⟨s.startDecodeBank, exec_decodeBank_idle hst, Memory.read_nil, rfl⟩, exec_decodeBank_busy⟩

/-- Settles O37: the operations have no guard, so the answers are those of the definition. -/
theorem nopChangesNothingAndReservedCommandsOnlySetCerr : Obligations.NopChangesNothingAndReservedCommandsOnlySetCerr :=
  fun _ => ⟨rfl, rfl, fun _ => rfl, fun _ => rfl, fun _ => rfl, fun _ => rfl, fun _ => rfl, fun _ => rfl⟩

/-- Every command but NOP is refused outside IDLE (43_control_commands.md R155). -/
theorem exec_command_busy {s : State} {w : Byte} (hw : w ≠ 0x00) (hst : s.st ≠ .idle) :
    exec (decodeCmd w) s = .next s.refuseAction := by
  have hrow := commandRow_decodeCmd w
  generalize decodeCmd w = i at hrow
  cases hrow with
  | nop => exact absurd rfl hw
  | readHeader => exact exec_readHeader_busy hst
  | decodeBank => exact exec_decodeBank_busy hst
  | _ => rfl

/-- Settles O34: the lines of the rule in their order. -/
theorem commandWriteFollowsItsOrder : Obligations.CommandWriteFollowsItsOrder := by
  intro s w colour rest hag
  obtain ⟨hnop, hreadHeader, hdecodeBank, hreserved, -⟩ := commandByteIsTheWholeOpcode w
  rw [stepRunsTheDecodedAccess s _ rest (decodeCmd w) hag rfl]
  by_cases h0 : w = 0x00
  · rw [if_pos h0, hnop h0]; rfl
  rw [if_neg h0]
  by_cases hst : s.st ≠ .idle
  · rw [if_pos hst]; exact exec_command_busy h0 hst
  rw [if_neg hst]
  have hidle : s.st = .idle := not_not.1 hst
  by_cases h1 : w = 0x01
  · rw [if_pos h1, hreadHeader h1]; exact exec_readHeader_idle hidle
  rw [if_neg h1]
  by_cases h2 : w = 0x02
  · rw [if_pos h2, hdecodeBank h2]; exact exec_decodeBank_idle hidle
  · rw [if_neg h2]; exact hreserved (by bv_omega) _

/-- Settles O38. -/
theorem ldpalWritesOneEntryWhileIdle : Obligations.LdpalWritesOneEntryWhileIdle := by
  intro i v s
  refine ⟨fun hst => ⟨_, exec_ldpal_idle hst i v, fun k => ?_⟩, fun hst => exec_ldpal_busy hst i v⟩
  have hentry : k = i.toFin ↔ i.toNat = k.val := by rw [Fin.ext_iff, eq_comm]; rfl
  simp only [hentry, Fin.getElem_fin, Vector.getElem_setIfInBounds]

/-- Settles O43. -/
theorem writesToOtherRegistersAreRefused : Obligations.WritesToOtherRegistersAreRefused := by
  intro s number byte colour rest hag hcmd hpal
  have hreject : decode (.access (.write number byte colour)) = .error (.noRegisterWrite number) := by
    rw [decode_write, if_neg hcmd, if_neg hpal]
  rw [step_access hag, runEncoded_of_reject hreject]
  rfl

/-! ### Reads -/

theorem State.headerByte_of_hdrv {s : State} (h : s.hdrv = true) (b : Byte) : s.headerByte (some b) = some (.bits8 b) :=
  if_pos h

theorem State.headerByte_without_hdrv {s : State} (h : s.hdrv = false) (v : Option Byte) : s.headerByte v = none :=
  if_neg (Bool.eq_false_iff.1 h)

theorem State.sigok_without_hdrv {s : State} (h : s.hdrv = false) : s.sigok = none := if_neg (Bool.eq_false_iff.1 h)

theorem exec_rdSig (i : BitVec 2) (s : State) : exec (.rdSig i) s = .next (s.deliver (s.headerByte s.sig[i.toFin])) := rfl

/-- The signature comparison of four bytes, as a bit (42_header_validator.md R142). -/
theorem ofBool_isValidSignature (v : Vector Byte 4) :
    BitVec.ofBool (isValidSignature v.toList) = if v = #v[0x4E, 0x45, 0x53, 0x1A] then 1 else 0 := by
  have hvalid : isValidSignature v.toList = true ↔ v = #v[0x4E, 0x45, 0x53, 0x1A] :=
    isValidSignature_iff.trans (Vector.toList_inj (ys := #v[0x4E, 0x45, 0x53, 0x1A]))
  split
  · rw [hvalid.2 ‹_›]; rfl
  · rw [Bool.eq_false_iff.2 (mt hvalid.1 ‹_›)]; rfl

/-- Settles O40. -/
theorem headerReadsWhileHdrv : Obligations.HeaderReadsWhileHdrv := by
  intro v p c s hhdrv hsig hprg hchr
  refine ⟨fun i => ?_, ?_, ?_, ?_⟩
  · rw [exec_rdSig, hsig, State.headerByte_of_hdrv hhdrv, State.deliver_some]
  · simp only [exec, execRdPrg, hprg, State.headerByte_of_hdrv hhdrv, State.deliver_some]
  · simp only [exec, execRdChr, hchr, State.headerByte_of_hdrv hhdrv, State.deliver_some]
  · simp only [exec, execRdSigok, State.sigok_eq_some hhdrv hsig, Option.map_some, ofBool_isValidSignature,
      State.deliver_some]

/-- Settles O39. -/
theorem statusAndProgressReadInAnyState : Obligations.StatusAndProgressReadInAnyState := by
  intro s
  refine ⟨⟨s.status, ?_, s.status_toNat⟩, ?_, ?_, fun i => ?_⟩
  · simp only [exec, execRdStatus, State.deliver_some]
  · simp only [exec, execRdTn, State.deliver_some]
  · simp only [exec, execRdBc, State.deliver_some]
  · simp only [exec, execRdPal, lut_eq, State.deliver_some]

/-- Settles O41. -/
theorem rdpixGivesTheColourWhileCvv : Obligations.RdpixGivesTheColourWhileCvv := by
  intro a v s hcvv hread
  simp only [exec, execRdpix, if_pos hcvv, hread, Option.map_some, State.deliver_some]

/-- Register 0 is write only and those from 15 on are reserved (10_state.md R27). -/
theorem decode_read_none {number : Byte} (h : number.toNat = 0 ∨ 15 ≤ number.toNat) :
    decode (.access (.read number)) = .error (.noRegisterRead number) := by
  rw [(registerMapDecides number 0 0).2]
  repeat rw [if_neg (by omega)]

/-- Settles O42. -/
theorem readsWithNoValueOnlyMarkTheRun : Obligations.ReadsWithNoValueOnlyMarkTheRun := by
  intro s
  refine ⟨fun hhdrv => ⟨fun i => ?_, ?_, ?_, ?_⟩, fun hcvv a => ?_, fun number rest hag hnumber => ?_⟩
  · rw [exec_rdSig, State.headerByte_without_hdrv hhdrv, State.deliver_none]
  · simp only [exec, execRdPrg, State.headerByte_without_hdrv hhdrv, State.deliver_none]
  · simp only [exec, execRdChr, State.headerByte_without_hdrv hhdrv, State.deliver_none]
  · simp only [exec, execRdSigok, State.sigok_without_hdrv hhdrv, Option.map_none, State.deliver_none]
  · simp only [exec, execRdpix, if_neg (Bool.eq_false_iff.1 hcvv), State.deliver_none]
  · rw [step_access hag, runEncoded_of_reject (decode_read_none hnumber), onReject, State.deliver_none]

end Sys2Proof.Machine
end

section
/-!
PROOFS, 60_exceptions.md R184 to R186: a bank decode on a stream that ends inside the bank (O24), and what a step from FAULT may
do (O44).
-/
namespace Sys2Proof.Machine

open Sys2Proof

/-! ### A stream that ends inside the bank -/

/-- The steps of a bank decode as far as the stream goes: its whole tiles, then the bytes of the one it ends in. With the cursor
past the end of the stream there are none. -/
theorem runSteps_available {s : State} (hag : s.agenda = []) {m : Nat} (hm : m = s.src.length - s.scur) (hshort : m < 8192) :
    runSteps (m + m / 16) s.startDecodeBank = .next ((s.tilesDone (m / 16)).planesTaken (m % 16)) := by
  rcases Nat.eq_zero_or_pos m with rfl | hpos
  · exact congrArg _ (State.planesTaken_zero (s := s.startDecodeBank) rfl).symm
  · have hopen : ((s.tilesDone (m / 16)).planesTaken (m % 16)).bc.toNat < 16 :=
      (toNat_ofNat_five (by omega)).trans_lt (by omega)
    rw [show m + m / 16 = 17 * (m / 16) + m % 16 by omega,
      runSteps_inside_bank hag (by omega) (by omega) (by omega), State.closeRecord_of_lt hopen]

/-- One more step finds no byte (60_exceptions.md R184). -/
theorem runSteps_bank_short {s : State} (hag : s.agenda = []) {m : Nat} (hm : m = s.src.length - s.scur) (hshort : m < 8192) :
    runSteps (m + m / 16 + 1) s.startDecodeBank =
      .next (((s.tilesDone (m / 16)).planesTaken (m % 16)).raiseFault .bankUnderrun) := by
  have hrun := runSteps_available hag hm hshort
  have htn : (BitVec.ofNat 10 (m / 16)).toNat ≤ 511 := by rw [toNat_ofNat_ten (by omega)]; omega
  have hbc : (BitVec.ofNat 5 (m % 16)).toNat ≤ 15 := by rw [toNat_ofNat_five (by omega)]; omega
  have hend : s.src.length ≤ s.scur + 16 * (m / 16) + m % 16 := by omega
  obtain ⟨A, B, canvas, hstate⟩ := s.tilesDone_eq (m / 16)
  rw [runSteps_add 1 hrun, hstate]
  refine runSteps_succ ((step_empty ?_).trans (blockStep_fetch_end ?_ ?_))
  exacts [hag, ⟨rfl, hbc, htn⟩, hend]

/-- Settles O24: the fault entry discards the tiles that were done, and keeps their number. -/
theorem anyShortfallFailsTheWholeBank : Obligations.AnyShortfallFailsTheWholeBank := by
  intro s hag hst hshort
  obtain ⟨m, hm⟩ : ∃ m, m = s.src.length - s.scur := ⟨_, rfl⟩
  rw [← hm] at hshort ⊢
  have hrun := runSteps_bank_short hag hm hshort
  obtain ⟨A, B, canvas, hstate⟩ := s.tilesDone_eq (m / 16)
  rw [hstate] at hrun
  have hcursor : s.scur ≤ s.src.length → s.scur + 16 * (m / 16) + m % 16 = s.src.length := by omega
  exact ⟨s.startDecodeBank, _, exec_decodeBank_idle hst, hrun, rfl, rfl, toNat_ofNat_ten (by omega),
    toNat_ofNat_five (by omega), rfl, rfl, Memory.read_nil, hcursor, rfl, rfl⟩

/-! ### FAULT -/

/-- In FAULT a turn other than reset changes at most CERR and the model's own fields (60_exceptions.md R186): the block has no
step, and what only IDLE accepts is refused. -/
theorem TurnEffect.of_fault {x : Turn} {u t : State} (h : TurnEffect u x t) (hst : u.st = .fault) :
    t = { u with cerr := t.cerr, rdata := t.rdata, wire := t.wire, marked := t.marked } ∨ (x = .reset ∧ t = u.resetBlock) := by
  have hidle : u.st ≠ .idle := by simp [hst]
  have hfetch : u.st ≠ .fetch := by simp [hst]
  have hhdr : u.st ≠ .hdr := by simp [hst]
  cases h with
  | nothing | deliver | refuse | wire => exact .inl rfl
  | reset => exact .inr ⟨rfl, rfl⟩
  | block _ hblock =>
    obtain rfl := Host.Outcome.next.inj ((blockStep_fault hst).symm.trans hblock)
    exact .inl rfl
  | startReadHeader _ h | startDecodeBank _ h | palette _ h | seek _ h => exact absurd h hidle
  | tfetch _ hr | tileRecord _ hr => exact absurd hr.1 hfetch
  | headerRecord _ h => exact absurd h hhdr

/-- Settles O44. -/
theorem faultIsLeftOnlyByReset : Obligations.FaultIsLeftOnlyByReset := by
  intro s t hst hstep
  rcases step_effect hstep with hb | ⟨x, rest, hx, he⟩
  · obtain rfl := Host.Outcome.next.inj ((blockStep_fault hst).symm.trans hb)
    exact .inl ⟨hst, rfl, rfl, rfl, rfl, rfl, rfl, rfl, rfl⟩
  · rcases he.of_fault hst with ht | ⟨rfl, rfl⟩
    · rw [ht]
      exact .inl ⟨hst, rfl, rfl, rfl, rfl, rfl, rfl, rfl, rfl⟩
    · exact .inr ⟨rest, hx, rfl, rfl⟩

end Sys2Proof.Machine
end

section
/-!
PROOFS, 70_reset_and_hazards.md: reset gives every register of the block its value of R31 (O45, R200), and the palette does not
change while the block is not IDLE (O51, R206).
-/
namespace Sys2Proof.Machine

open Sys2Proof

/-! ### Reset -/

theorem exec_reset (s : State) : exec .reset s = .next s.resetBlock := rfl

theorem State.resetBlock_pal_get (s : State) (i : Fin 4) : s.resetBlock.pal[i] = Config.defaultColour i := by simp

theorem State.resetBlock_status (s : State) : s.resetBlock.status = 0x00 := by
  simp [State.status, Cause.code, Seq.code]

/-- Settles O45. -/
theorem resetRestoresEveryRegister : Obligations.ResetRestoresEveryRegister := fun s =>
  ⟨s.resetBlock, exec_reset s, rfl, s.resetBlock_pal_get, Memory.read_nil, s.resetBlock_status⟩

/-! ### The palette -/

/-- No step of the block itself writes the palette. -/
theorem blockStep_pal {s t : State} (h : blockStep s = .next t) : t.pal = s.pal := by
  rcases blockStep_cases h with
    ⟨rfl, -⟩ | ⟨-, v, -, rfl⟩ | ⟨-, -, rfl⟩ | ⟨-, A, B, -, -, rfl⟩ | ⟨-, v, -, rfl⟩ | ⟨-, -, rfl⟩ <;> simp

/-- But for reset, a turn writes the palette only in IDLE (43_control_commands.md R161). -/
theorem TurnEffect.pal {x : Turn} {u t : State} (h : TurnEffect u x t) (hx : x ≠ .reset) (hst : u.st ≠ .idle) :
    t.pal = u.pal := by
  cases h
  case reset => exact absurd rfl hx
  case palette hidle _ => exact absurd hidle hst
  case block hb => exact blockStep_pal hb
  case tfetch =>
    obtain ⟨-, hpal, -⟩ := State.fetchBytes_frame 16 u
    exact hpal
  all_goals rfl

/-- Settles O51. -/
theorem paletteIsStableWhileBusy : Obligations.PaletteIsStableWhileBusy := by
  intro s t hst hreset hstep
  rcases step_effect hstep with hb | ⟨x, rest, hx, he⟩
  · exact blockStep_pal hb
  · exact he.pal (fun e => hreset rest (e ▸ hx)) hst

end Sys2Proof.Machine
end
